-- ==== Sys2Proof/Word.lean ====
section
/-! DEFINITION. The word and byte types of the 7140 (00_scope.md, Sizes: a byte is 8 bits, a word is 32 bits). -/

namespace Sys2Proof

/-- A byte is 8 bits (00_scope.md, Sizes). -/
abbrev Byte := BitVec 8

/-- A word is 32 bits (00_scope.md, Sizes). -/
abbrev Word := BitVec 32

end Sys2Proof
end

