-- ==== Sys2Proof/Syntax.lean ====
section
/-! DEFINITION. The commands and events of the 7140: one constructor for each row of spec/opcode_table.json. -/

namespace Sys2Proof

/-- A physical bank of the correction store (R63). -/
inductive Bank where
  | a
  | b
  deriving DecidableEq, Repr, Inhabited

/-- The steps of the part. The first 32 are the steps in which the command engine takes one service packet
(R147): `tag` and `payload` are the packet's (Table 54), and the code is the row's own. The others are the
events of the part's boundary and of its background work (95_what_each_step_holds.md). -/
inductive Instr where
  | status (tag : Byte) (payload : List Word)
  | release (tag : Byte) (payload : List Word)
  | restart (tag : Byte) (payload : List Word)
  | anchorSet (tag : Byte) (payload : List Word)
  | anchorRead (tag : Byte) (payload : List Word)
  | nodeWrite (tag : Byte) (payload : List Word)
  | nodeRead (tag : Byte) (payload : List Word)
  | nodeFill (tag : Byte) (payload : List Word)
  | geometrySet (tag : Byte) (payload : List Word)
  | geometryRead (tag : Byte) (payload : List Word)
  | activate (tag : Byte) (payload : List Word)
  | logRead (tag : Byte) (payload : List Word)
  | logClear (tag : Byte) (payload : List Word)
  | pipeSet (tag : Byte) (payload : List Word)
  | pipeRead (tag : Byte) (payload : List Word)
  | windowSet (tag : Byte) (payload : List Word)
  | reportRead (tag : Byte) (payload : List Word)
  | conditionsRead (tag : Byte) (payload : List Word)
  | captureRead (tag : Byte) (payload : List Word)
  | captureClear (tag : Byte) (payload : List Word)
  | profileWrite (tag : Byte) (payload : List Word)
  | profileRead (tag : Byte) (payload : List Word)
  | regionSelect (tag : Byte) (payload : List Word)
  | keyOpen (tag : Byte) (payload : List Word)
  | keyData (tag : Byte) (payload : List Word)
  | keyLock (tag : Byte) (payload : List Word)
  | keyAbandon (tag : Byte) (payload : List Word)
  | keyQuery (tag : Byte) (payload : List Word)
  | commit (tag : Byte) (payload : List Word)
  | commitAbort (tag : Byte) (payload : List Word)
  | reopen (tag : Byte) (payload : List Word)
  /-- A packet whose code names no command (R148). -/
  | unknownCode (tag code : Byte) (payload : List Word)
  /-- Power is applied at the instant `now` (R143). -/
  | powerOn (now : Nat)
  /-- Power is removed. What a key word in progress is left as (`keyMark`: its programmed mark is set;
  `keyBits`: which of the bits asked for are set) and, word by word, which bits of the flash words in
  progress are still to be changed (R116, R139). -/
  | powerRemoval (keyMark : Bool) (keyBits : Word) (flashBits : List Word)
  /-- One stored bit (0..31 data, 32..38 check) of a bank word changes state (R63). -/
  | storageFault (bank : Bank) (address bit : Nat)
  | inputFrameStart (now : Nat)
  | rowEnd
  | inputFrameEnd
  | linkLoss
  /-- One pixel arrives: the three 12-bit link fields (R1, R157). -/
  | pixelReceived (r g b : BitVec 12)
  | pixelProcess
  | deadlineExpiry
  | freeRunFrameEnd
  | fetchWordRead
  | scrubWriteBack
  | engineWordWrite
  | engineWordRead
  | commitReaderWord
  /-- The flash operation in progress ends. `error`: it reports an error; `left`: the words its sector or page
  then holds from its start where it does not hold what was asked (empty: it holds what was asked) (R137). -/
  | flashOperationEnd (error : Bool) (left : List Word)
  /-- The key array word in progress ends; `stuck`: the bits asked for that stay clear (R116). -/
  | keyWordProgrammed (stuck : Word)
  | keyVerifyEnd
  | keyArrayScanEnd
  /-- One loader write; `readFails`: the flash read it needs fails (R144). -/
  | loaderWordWrite (readFails : Bool)
  | startUpLoadEnd (readFails : Bool)
  /-- The lane ends a reply at the instant `now`, at which start-up begins if it is RESTART's (R163, R143). -/
  | replyTransmissionEnd (now : Nat)
  | freeRunPixelSent
  /-- A storage fault sets a bit of an unprogrammed word of a slot area (R125). -/
  | keyArrayStorageFault (slot word bit : Nat)
  deriving DecidableEq, Repr

end Sys2Proof
end

