-- ==== Sys2Proof/Decode.lean ====
section
/-! DEFINITION. The command that a word of the opcode table's bits spells. The table gives no row any bits (each
"fields" is empty and none has "fixed"), so no word spells a command (log 35). The part's own packet decoding from
pixels is Machine/Receiver.lean. -/

namespace Sys2Proof

/-- The command whose table bits are `w`: none, since no row of spec/opcode_table.json has bits. -/
def decodeTableWord (nbits w : Nat) : Option Instr :=
  match nbits, w with
  | _, _ => none

end Sys2Proof
end

