-- ==== Sys2Proof/Machine/Bits.lean ====
section
/-! DEFINITION. Fields of words, byte order and the two CRCs (11_formats.md, R165, R166). -/

namespace Sys2Proof.Machine

/-- The field "hi..lo" of a word as a number (11_formats.md: bit 0 is the least significant). -/
def bits (w : Word) (hi lo : Nat) : Nat := w.toNat / 2 ^ lo % 2 ^ (hi + 1 - lo)

/-- A word whose field "hi..lo" holds `v` and whose other bits are 0 (R165, on output). -/
def put (v hi lo : Nat) : Word := BitVec.ofNat 32 (v % 2 ^ (hi + 1 - lo) * 2 ^ lo)

/-- One bit as a field (presence marks and flags). -/
def putBit (b : Bool) (i : Nat) : Word := if b then put 1 i i else 0

/-- A word as four bytes, most significant first (R165). -/
def wordBytes (w : Word) : List Byte :=
  [w.extractLsb' 24 8, w.extractLsb' 16 8, w.extractLsb' 8 8, w.extractLsb' 0 8]

/-- Words as bytes, in order (R165). -/
def wordsBytes (ws : List Word) : List Byte := ws.flatMap wordBytes

/-- A word from four bytes, the first the most significant (R165). -/
def byteWord (a b c d : Byte) : Word := a ++ b ++ c ++ d

/-- Words from bytes, four at a time (R165). -/
def bytesWords : List Byte → List Word
  | a :: b :: c :: d :: rest => byteWord a b c d :: bytesWords rest
  | _ => []

/-- A two-byte field as bytes, high byte first (R165). -/
def halfBytes (v : BitVec 16) : List Byte := [v.extractLsb' 8 8, v.extractLsb' 0 8]

/-- A two-byte field from its bytes, high byte first (R165). -/
def byteHalf (a b : Byte) : BitVec 16 := a ++ b

/-- The bits of a byte, most significant first (R166). -/
def byteBits (b : Byte) : List Bool :=
  [b.getLsbD 7, b.getLsbD 6, b.getLsbD 5, b.getLsbD 4, b.getLsbD 3, b.getLsbD 2, b.getLsbD 1, b.getLsbD 0]

/-- One bit fed to a CRC register (R166): the bit and the top bit are combined, the register is shifted up, and the
generator is combined in when the combined bit is 1. -/
def crcBit {n : Nat} (generator : BitVec n) (r : BitVec n) (b : Bool) : BitVec n :=
  if xor b r.msb then r <<< 1 ^^^ generator else r <<< 1

/-- One byte fed to a CRC register, most significant bit first (R166). -/
def crcByte {n : Nat} (generator r : BitVec n) (b : Byte) : BitVec n :=
  (byteBits b).foldl (crcBit generator) r

/-- The CRC-16 of Table 53 over bytes: generator 1021h from FFFFh, no final inversion. -/
def crc16 (bs : List Byte) : BitVec 16 := bs.foldl (crcByte 0x1021) 0xFFFF

/-- CRC-32 of Table 53 carried on from a register: generator 04C11DB7h. -/
def crc32From (r : Word) (bs : List Byte) : Word := bs.foldl (crcByte 0x04C11DB7) r

/-- CRC-32 of Table 53 over bytes, from FFFFFFFFh, no final inversion (R58, R120, R133). -/
def crc32 (bs : List Byte) : Word := crc32From 0xFFFFFFFF bs

end Sys2Proof.Machine
end

