-- ==== Sys2Proof/Config.lean ====
section
/-! DEFINITION. Capacities and codes the manual fixes, and the values it leaves free (opaque constants, no body). -/

namespace Sys2Proof

/-- What a checked read can find (Table 27): clean, one bit corrected at its position 0..38, or uncorrectable. -/
inductive Finding where
  | clean
  | corrected (bit : Fin 39)
  | uncorrectable
  deriving DecidableEq, Repr, Inhabited

namespace Config

/-- Words of one bank (R63). -/
def bankWords : Nat := 786432

/-- Entries of the command queue (R147). -/
def commandQueueSize : Nat := 320

/-- Entries of the reply queue (R147). -/
def replyQueueSize : Nat := 64

/-- Requests of the scrub queue (R76). -/
def scrubQueueSize : Nat := 8

/-- Entries of the error log (R78). -/
def logSize : Nat := 16

/-- Reports of the frame report ring (R60). -/
def ringSize : Nat := 4

/-- Payload words of the largest packet (R160: length code 127). -/
def maxPayload : Nat := 128

/-- Key slots (R113) and words of one slot area (R116). -/
def keySlots : Nat := 24

/-- Words of one key slot area (R116). -/
def slotAreaWords : Nat := 260

/-- Region profile entries (R104). -/
def profileEntries : Nat := 16

/-- Where a frame count and the trapped count stop (R46, R47). -/
def countTop : Nat := 16777215

/-- Where the window pixel count stops (R57). -/
def pixelCountTop : Nat := 4294967295

/-- Ticks of the model's time unit in 1/60 s: one tick is 1/60 ns.
DESIGN CHOICE (log 9): the manual gives time no resolution; safe. -/
def startPeriod : Nat := 1000000000

/-- The 31 command codes of the manual, each as its own rule gives it ("code 21h"). -/
def commandCodes : List Byte :=
  [0x01, 0x02, 0x03, 0x18, 0x19, 0x20, 0x21, 0x22, 0x24, 0x25, 0x28, 0x29, 0x2A, 0x40, 0x41, 0x50,
   0x51, 0x52, 0x53, 0x54, 0x60, 0x61, 0x62, 0x70, 0x71, 0x72, 0x73, 0x74, 0x80, 0x81, 0x82]

/-- The equations of the check bits. R75: "This manual does not give the equations of the check bits."
A FREE VALUE (log 10): `Machine.checkBits` takes them where they do what R63 says of the check bits; safe. -/
opaque checkEquations : Word → BitVec 7

/-- What a read finds of stored bits that lie three or more bits from every word with its check bits.
R75: it "may make any of the three findings", the same for the same stored bits. A FREE VALUE (log 11); safe. -/
opaque deepFinding : BitVec 39 → Finding

/-- What a 0..65535 counter of the link receiver holds after 65535 (Table 50 gives the range, no rule the
overflow). A FREE VALUE (log 12); safe. -/
opaque countPastTop : BitVec 16

end Config

end Sys2Proof
end

