-- ==== Sys2Proof/Machine/State.lean ====
section
/-! DEFINITION. The state of the 7140 as plain data, block by block (00_scope.md, Table 1), and the state at power-on. -/

namespace Sys2Proof.Machine

/-- Sparse storage: (address, cell) pairs. `Memory.wf` (Machine/Ops.lean) says it is canonical. -/
abbrev Memory (α : Type) := List (Nat × α)

/-! ### Frame context (Table 6) -/

/-- The pending mode (R10). -/
inductive PipeMode where
  | bypass
  | full
  deriving DecidableEq, Repr

/-- The frame mode (R12). -/
inductive FrameMode where
  | bypass
  | full
  | mismatch
  | freeRun
  deriving DecidableEq, Repr

/-- An input or output width: 8, 10 or 12 bits (R1). -/
inductive Depth where
  | d8
  | d10
  | d12
  deriving DecidableEq, Repr

/-- The squeeze rounding (R40, R41). -/
inductive Rounding where
  | nearest
  | truncate
  | ordered
  deriving DecidableEq, Repr

/-- One mark for each condition: the masks (set is TRAP) and the sticky flags (R10, R49). -/
structure Marks where
  nodeEcc : Bool
  clipLow : Bool
  clipHigh : Bool
  limit : Bool
  deriving DecidableEq, Repr

/-- The channel gains g_R, g_G, g_B, each 0..4096 (Table 6). -/
structure Gains where
  r : Nat
  g : Nat
  b : Nat
  deriving DecidableEq, Repr

/-- An inclusive rectangle x0 ≤ x ≤ x1, y0 ≤ y ≤ y1 (R54). -/
structure Rect where
  x0 : Nat
  y0 : Nat
  x1 : Nat
  y1 : Nat
  deriving DecidableEq, Repr

/-- A window as applied (R56). -/
inductive Window where
  | empty
  | rect (r : Rect)
  deriving DecidableEq, Repr

/-- A width and a height, in pixels. -/
structure Size where
  width : Nat
  height : Nat
  deriving DecidableEq, Repr

/-- A geometry record (Table 25): frame size, node pitch, plane count, delta scale shift, plane levels. -/
structure Geometry where
  w : Nat
  h : Nat
  p : Nat
  k : Nat
  s : Nat
  levels : List Nat
  deriving DecidableEq, Repr

/-- The pending context that the pipeline keeps (R10). -/
structure PendingContext where
  mode : PipeMode
  din : Depth
  dout : Depth
  rounding : Rounding
  masks : Marks
  ceiling : Nat
  gains : Gains
  bank : Bank
  geometry : Option Geometry
  deriving DecidableEq, Repr

/-- The live context (R10 to R12); its window is the applied window (R11). -/
structure LiveContext where
  mode : FrameMode
  din : Depth
  dout : Depth
  rounding : Rounding
  masks : Marks
  ceiling : Nat
  gains : Gains
  bank : Bank
  geometry : Option Geometry
  window : Window
  deriving DecidableEq, Repr

/-! ### Output timing (Table 5) -/

/-- The frame in progress at the panel; a free-run frame has its raster and the pixels sent so far (R7, R9). -/
inductive OutFrame where
  | none
  | input
  | freeRun (raster : Size) (sent : Nat)
  deriving DecidableEq, Repr

/-- What output timing hands the monitor of an input frame that has ended (R5, R6). -/
structure EndedFrame where
  measured : Size
  serviceRows : Nat
  deriving DecidableEq, Repr

structure Timing where
  /-- Timing state: FREE_RUN when set, RUNNING when clear. -/
  free : Bool
  frameNumber : BitVec 32
  lastPeriod : Nat
  deadline : Option Nat
  raster : Option Size
  frame : OutFrame
  /-- An input frame that has ended on the link while pixels of it still wait (R5, R22). -/
  owedEnd : Option EndedFrame
  deriving DecidableEq, Repr

/-! ### Link receiver (Table 50) -/

/-- States of the line decoder (Table 51). -/
inductive DecState where
  | idle
  | matching
  | header
  | packets
  | skipping
  deriving DecidableEq, Repr

/-- The line decoder: its state, the line byte count and bytes consumed, and the bytes gathered (the line's first
bytes, or the packet in hand). -/
structure Decoder where
  state : DecState
  lineCount : Option Nat
  consumed : Option Nat
  bytes : List Byte
  deriving DecidableEq, Repr

/-- The input frame being received. -/
structure RxFrame where
  row : Nat
  pixels : Nat
  rowOpen : Bool
  firstRow : Option Nat
  regionOpen : Bool
  dec : Decoder
  deriving DecidableEq, Repr

structure Receiver where
  frame : Option RxFrame
  /-- Service lines of the frame most recently begun: rows 0 .. serviceRows − 1 (R158). -/
  serviceRows : Nat
  measured : Option Size
  prevStart : Option Nat
  deriving DecidableEq, Repr

/-! ### Correction pipeline -/

/-- A pixel received: its position (R3) and its three 12-bit link fields (R1). -/
structure InPixel where
  x : Nat
  y : Nat
  r : BitVec 12
  g : BitVec 12
  b : BitVec 12
  deriving DecidableEq, Repr

structure Pipeline where
  pending : PendingContext
  live : LiveContext
  /-- Pixels received and not yet processed, oldest first (R22). -/
  input : List InPixel
  /-- The pixel last put on the panel link output (R1). -/
  panel : Option InPixel
  deriving DecidableEq, Repr

/-! ### Frame monitor (Table 19) -/

inductive Condition where
  | nodeEcc
  | clipLow
  | clipHigh
  | limit
  deriving DecidableEq, Repr

inductive Channel where
  | r
  | g
  | b
  deriving DecidableEq, Repr

/-- The capture record (Table 21). -/
structure Capture where
  frame : BitVec 32
  x : Nat
  y : Nat
  channel : Channel
  condition : Condition
  w : Nat
  delta : Option Int
  before : Option Int
  deriving DecidableEq, Repr

/-- The four frame counts (R46). -/
structure Counts where
  nodeEcc : Nat
  clipLow : Nat
  clipHigh : Nat
  limit : Nat
  deriving DecidableEq, Repr

/-- The signature accumulator (R57, R58). -/
structure Accumulator where
  crc : Word
  pixels : Nat
  deriving DecidableEq, Repr

/-- A frame report (Table 22). -/
structure Report where
  frame : BitVec 32
  bank : Option Bank
  mode : FrameMode
  measured : Option Size
  serviceRows : Nat
  window : Window
  pixels : Nat
  signature : Word
  counts : Counts
  trapped : Nat
  deriving DecidableEq, Repr

structure Monitor where
  sticky : Marks
  counts : Counts
  trapped : Nat
  capture : Option Capture
  window : Rect
  acc : Option Accumulator
  ring : List Report
  deriving DecidableEq, Repr

/-! ### Correction store (Table 23) and node row buffer (Table 29) -/

/-- A stored word: the data last written and the bits, of data (0..31) and check bits (32..38), that now differ
from their last written form (R63). -/
structure StoredWord where
  data : Word
  flips : BitVec 39
  deriving DecidableEq, Repr

/-- A scrub request (R76): bank, address, the stored bits as read and the corrected data. -/
structure ScrubRequest where
  bank : Bank
  addr : Nat
  seen : StoredWord
  fixed : Word
  deriving DecidableEq, Repr

/-- The kind of a log entry with the bit position that a CORRECTED one has (Table 28). -/
inductive ErrorKind where
  | corrected (bit : Nat)
  | uncorrectable
  deriving DecidableEq, Repr

/-- An error log entry (Table 28). -/
structure LogEntry where
  bank : Bank
  addr : Nat
  kind : ErrorKind
  first : BitVec 32
  count : Nat
  deriving DecidableEq, Repr

structure Store where
  bankA : Memory StoredWord
  bankB : Memory StoredWord
  geomA : Option Geometry
  geomB : Option Geometry
  active : Bank
  activatePending : Bool
  scrub : List ScrubRequest
  log : List LogEntry
  deriving DecidableEq, Repr

/-- A word in a row slot with its poisoned mark (Table 29). -/
structure SlotWord where
  word : Word
  poisoned : Bool
  deriving DecidableEq, Repr

/-- A resident row slot: its tag, how many words the fetch has delivered, and the words (Table 29). -/
structure Slot where
  bank : Bank
  row : Nat
  delivered : Nat
  words : Memory SlotWord
  deriving DecidableEq, Repr

structure RowBuffer where
  /-- The three slots, each empty or resident. -/
  slots : List (Option Slot)
  fetchList : List Nat
  /-- The slot whose fetch is in progress (0..2). -/
  fetch : Option Nat
  /-- The last band begun in this frame (R83). -/
  bandBegun : Nat
  deriving DecidableEq, Repr

/-! ### Command engine (Tables 30 and 45) -/

/-- A service packet in the command queue (Table 54; the reserved byte is not examined). -/
structure Packet where
  tag : Byte
  code : Byte
  payload : List Word
  deriving DecidableEq, Repr

/-- Increment modes of an anchor (R87). -/
inductive AnchorMode where
  | none
  | onWrite
  | onReadAndWrite
  deriving DecidableEq, Repr

structure Anchor where
  value : BitVec 20
  mode : AnchorMode
  deriving DecidableEq, Repr

/-- Refusal and failure reasons (Table 47). -/
inductive Reason where
  | busy
  | held
  | state
  | unknown
  | format
  | index
  | length
  | address
  | geometry
  | levels
  | slot
  | order
  | mismatch
  | keysMissing
  | noRegion
  | aborted
  | program
  | flash
  | ecc
  deriving DecidableEq, Repr

/-- Causes of hold (R149). -/
inductive HoldCause where
  | check
  | overrun
  | refusal (reason : Reason)
  deriving DecidableEq, Repr

/-- The hold record (R149). -/
structure HoldRecord where
  cause : HoldCause
  tag : Option Byte
  row : Option Nat
  address : Option Nat
  frame : BitVec 32
  deriving DecidableEq, Repr

/-- A run of a node command being executed: its tag, physical bank, base anchor number, length and next address. -/
structure Run where
  tag : Byte
  bank : Bank
  base : Nat
  n : Nat
  next : Nat
  deriving DecidableEq, Repr

/-- The command in hand (Table 45), when it outlasts the step that took it. -/
inductive Job where
  /-- NODE WRITE: the words still to write (R95). -/
  | write (run : Run) (todo : List Word)
  /-- NODE FILL: the fill word, how many words are left and the residual (R99). -/
  | fill (run : Run) (word : Word) (left residual : Nat)
  /-- NODE READ: how many words are left, whether the engine was held when it was taken (R92), the words read. -/
  | read (run : Run) (left : Nat) (held : Bool) (got : List Word)
  /-- COMMIT ABORT, waiting for the COMMIT reply (R138). -/
  | abort (tag : Byte)
  deriving DecidableEq, Repr

structure Engine where
  queue : List Packet
  inHand : Option Job
  hold : Option HoldRecord
  /-- Anchors 1 to 7, in order. -/
  anchors : List Anchor
  holdActivate : Option Byte
  holdKeyLock : Option Byte
  holdCommit : Option Byte
  holdRestart : Option Byte
  /-- A RESTART has been accepted: nothing more is taken (R142). -/
  restarting : Bool
  deriving DecidableEq, Repr

/-! ### Replies (Tables 47 and 48) -/

inductive Completion where
  | done
  | refused (reason : Reason)
  | failed (reason : Reason)
  deriving DecidableEq, Repr

/-- Lifecycle states (R130). -/
inductive Lifecycle where
  | starting
  | factory
  | committing
  | commissioned
  deriving DecidableEq, Repr

/-- The summary of a reply (Table 48). -/
structure Summary where
  lifecycle : Lifecycle
  held : Bool
  captureFilled : Bool
  anySticky : Bool
  logNonEmpty : Bool
  commitFailed : Bool
  activatePending : Bool
  keyInFlight : Bool
  deriving DecidableEq, Repr

/-- A reply, without the credits, which belong to its transmission (R154). -/
structure Reply where
  tag : Byte
  code : Byte
  completion : Completion
  summary : Summary
  payload : List Word
  deriving DecidableEq, Repr

/-- Who offers a reply, in the order of rank of R153. -/
inductive Poster where
  | store
  | key
  | life
  | engine
  deriving DecidableEq, Repr

/-- A reply waiting for space (R152). `owed`: it was offered after RESTART was accepted (R142). -/
structure Waiter where
  poster : Poster
  owed : Bool
  reply : Reply
  deriving DecidableEq, Repr

/-- A background reply that its block posts once its reply that waits has been admitted: "Each block has at most one
reply waiting" (R153). Its summary is built then (R151; log 24). -/
structure Post where
  poster : Poster
  owed : Bool
  tag : Byte
  code : Byte
  completion : Completion
  payload : List Word
  deriving DecidableEq, Repr

/-- The lane: IDLE, or SENDING the oldest reply with these credits (R154, R163). -/
inductive Lane where
  | idle
  | sending (credits : Nat)
  deriving DecidableEq, Repr

structure ReturnPath where
  queue : List Reply
  waiting : List Waiter
  /-- Replies still to be posted by a block that has one waiting, in order (R153; log 24). -/
  later : List Post
  lane : Lane
  deriving DecidableEq, Repr

/-! ### Region table (Table 32) -/

/-- A valid profile entry (Table 33). `required`: bit c marks class c, c = 1..7 (Table 56). -/
structure Profile where
  ceiling : Nat
  gains : Gains
  required : BitVec 8
  deriving DecidableEq, Repr

structure Region where
  entries : List (Option Profile)
  selected : Option Nat
  deriving DecidableEq, Repr

/-! ### Key unit (Table 34) -/

inductive SlotState where
  | empty
  | staging
  | locking
  | locked
  | damaged
  deriving DecidableEq, Repr

/-- Class, declared length and declared check value of a slot (R113). -/
structure KeyFields where
  cls : Nat
  length : Nat
  check : Word
  deriving DecidableEq, Repr

/-- A slot record (R113); the received count of a STAGING slot is the buffer's (R114). -/
structure KeyRecord where
  state : SlotState
  fields : Option KeyFields
  deriving DecidableEq, Repr

/-- A word of the key array: 32 bits and the programmed mark (R116). -/
structure KeyWord where
  bits : Word
  mark : Bool
  deriving DecidableEq, Repr

/-- Phases of programming (R124, R125): the word in hand in programming order, the verify, or the void word after
a verify in which `failed` words failed. -/
inductive KeyPhase where
  | word (i : Nat)
  | verify
  | void (failed : Nat)
  deriving DecidableEq, Repr

structure KeyProgress where
  slot : Nat
  phase : KeyPhase
  deriving DecidableEq, Repr

structure KeyUnit where
  records : List KeyRecord
  bound : Option Nat
  received : Nat
  buffer : Memory Byte
  array : Memory KeyWord
  prog : Option KeyProgress
  deriving DecidableEq, Repr

/-! ### Lifecycle controller (Table 39) -/

inductive CommitPhase where
  | erase
  | header
  | words
  | trailer
  deriving DecidableEq, Repr

/-- A flash operation (R135): the erase of a sector, or the program of a page with words from its start. -/
inductive FlashOp where
  | erase (sector : Nat)
  | program (page : Nat) (words : List Word)
  deriving DecidableEq, Repr

/-- Why a commit has stopped (R137, R138, R139): a flash failure at a byte address, an uncorrectable word, or an
abort, by RESTART or by COMMIT ABORT. -/
inductive CommitStop where
  | flash (address : Nat)
  | ecc (bank : Bank) (address : Nat)
  | abort (byRestart : Bool)
  deriving DecidableEq, Repr

/-- Commit progress (Table 39) with what R135 and R139 need: the word count n, the flash operations still to end (the
first is in progress), the words of the page being filled, the image CRC so far, and whether the programming of the page
that holds the CRC word, the last of the trailer, has ended. -/
structure Commit where
  bank : Bank
  n : Nat
  phase : CommitPhase
  taken : Nat
  stop : Option CommitStop
  ops : List FlashOp
  page : List Word
  crc : Word
  crcEnded : Bool
  deriving DecidableEq, Repr

/-- Start-up outcomes (R143, R146). -/
inductive StartOutcome where
  | pending
  | valid
  | blank
  | invalid
  | keys
  | flash
  deriving DecidableEq, Repr

/-- What the loader has read of an image header (Table 61). -/
structure ImageHeader where
  geometry : Geometry
  index : Nat
  profile : Profile
  din : Depth
  dout : Depth
  rounding : Rounding
  masks : Marks
  n : Nat
  deriving DecidableEq, Repr

/-- The image load (R144 to R146): the header still to be read; image words being written, `k` of them so far with
the CRC over the header and them; or zeros being written, with the outcome and the next of the 2 · 786,432 places. -/
inductive LoadPhase where
  | header
  | image (h : ImageHeader) (k : Nat) (crc : Word)
  | zero (outcome : StartOutcome) (h : Option ImageHeader) (next : Nat)
  deriving DecidableEq, Repr

inductive StartUp where
  | idle
  | scan
  | load (phase : LoadPhase)
  deriving DecidableEq, Repr

structure LifeController where
  lifecycle : Lifecycle
  commit : Option Commit
  commitFailed : Bool
  outcome : StartOutcome
  startUp : StartUp
  /-- The configuration flash, by byte address (R133). -/
  flash : List Host.Cell
  deriving DecidableEq, Repr

/-! ### The whole part -/

/-- The state of the 7140, and the sender's queue of commands that wait. -/
structure State where
  powered : Bool
  timing : Timing
  rx : Receiver
  pipe : Pipeline
  mon : Monitor
  store : Store
  buf : RowBuffer
  eng : Engine
  ret : ReturnPath
  region : Region
  key : KeyUnit
  life : LifeController
  pending : List Instr
  deriving DecidableEq, Repr

/-- Faults: a command that cannot exist. The part itself never stops. -/
inductive Fault where
  /-- Raised by a station command whose payload is not 1..128 words, and by UNKNOWN_CODE with a code that names a
  command: no service line carries such a packet (R160), or it is not this row's (R148). Safe. -/
  | noSuchPacket
  /-- Raised by STORAGE_FAULT for an address above 786,431 or a bit above 38: there is no such stored bit (R63). Safe. -/
  | noSuchBankBit
  /-- Raised by KEY_ARRAY_STORAGE_FAULT for a slot above 23, a word above 259 or a bit above 31: there is no such bit
  of the key array (R116). Safe. -/
  | noSuchKeyBit
  deriving DecidableEq, Repr

/-- Refusals: only the dispatch's, for a command without a meaning. -/
inductive Refusal where
  /-- Raised by an arm of `exec` whose command has no meaning yet; no arm is such. Safe. -/
  | notModelled (mnemonic : String)
  deriving DecidableEq, Repr

/-! ### Start-up values, block by block -/

/-- No condition is marked (masks all TOLERATE, flags all clear). -/
def Marks.clear : Marks := ⟨false, false, false, false⟩

/-- The gains while no region is selected (R14). -/
def Gains.unity : Gains := ⟨4096, 4096, 4096⟩

/-- The "whole frame" window setting (R54). -/
def Rect.whole : Rect := ⟨0, 0, 65535, 65535⟩

/-- Table 11, at the beginning of start-up. -/
def PendingContext.start : PendingContext where
  mode := .bypass
  din := .d10
  dout := .d10
  rounding := .nearest
  masks := .clear
  ceiling := 16383
  gains := .unity
  bank := .a
  geometry := none

/-- Table 11, at the beginning of start-up; the window as R17 shows it before the first frame start. -/
def LiveContext.start : LiveContext where
  mode := .bypass
  din := .d10
  dout := .d10
  rounding := .nearest
  masks := .clear
  ceiling := 16383
  gains := .unity
  bank := .a
  geometry := none
  window := .rect .whole

/-- Table 5, start-up beginning at the instant `now`. -/
def Timing.start (now : Nat) : Timing where
  free := false
  frameNumber := 0
  lastPeriod := Config.startPeriod
  deadline := some (now + 2 * Config.startPeriod)
  raster := none
  frame := .none
  owedEnd := none

/-- Table 50; `serviceRows` is a DESIGN CHOICE (log 40). -/
def Receiver.start : Receiver where
  frame := none
  serviceRows := 0
  measured := none
  prevStart := none

/-- R19; `panel` is a DESIGN CHOICE (log 33). -/
def Pipeline.start : Pipeline where
  pending := .start
  live := .start
  input := []
  panel := none

/-- Table 19. -/
def Monitor.start : Monitor where
  sticky := .clear
  counts := ⟨0, 0, 0, 0⟩
  trapped := 0
  capture := none
  window := .whole
  acc := none
  ring := []

/-- The store at the beginning of start-up (Table 23, R143); the words are not touched by the beginning. -/
def Store.start (bankA bankB : Memory StoredWord) : Store where
  bankA := bankA
  bankB := bankB
  geomA := none
  geomB := none
  active := .a
  activatePending := false
  scrub := []
  log := []

/-- All slots and the fetch list empty (R82). -/
def RowBuffer.start : RowBuffer where
  slots := [none, none, none]
  fetchList := []
  fetch := none
  bandBegun := 0

/-- Tables 30 and 45. -/
def Engine.start : Engine where
  queue := []
  inHand := none
  hold := none
  anchors := List.replicate 7 ⟨0, .none⟩
  holdActivate := none
  holdKeyLock := none
  holdCommit := none
  holdRestart := none
  restarting := false

/-- Tables 45 and 50. -/
def ReturnPath.start : ReturnPath where
  queue := []
  waiting := []
  later := []
  lane := .idle

/-- Table 32. -/
def Region.start : Region where
  entries := List.replicate 16 none
  selected := none

/-- The machine right after power-on (R143): STARTING, the key scan about to run, every block at its start-up
values. The key array is blank (R116, as delivered). DESIGN CHOICES: flash erased (log 14), bank words zero and
clean (log 13), start-up began at instant 0 (log 9). -/
def State.reset : State where
  powered := true
  timing := .start 0
  rx := .start
  pipe := .start
  mon := .start
  store := .start [] []
  buf := .start
  eng := .start
  ret := .start
  region := .start
  key := { records := List.replicate 24 ⟨.empty, none⟩, bound := none, received := 0, buffer := [], array := [],
           prog := none }
  life := { lifecycle := .starting, commit := none, commitFailed := false, outcome := .pending, startUp := .scan,
            flash := [] }
  pending := []

end Sys2Proof.Machine
end

