-- ==== Sys2Proof/Machine/Ops.lean ====
section
/-! DEFINITION. The shared operations over storage, registers and tables: sparse memories in one canonical form, the
banks by name, the anchors, the region entries, the slot records. -/

namespace Sys2Proof.Machine

/-! ### Sparse memories -/

/-- The cell at an address; an unlisted address reads as `d`. -/
def Memory.read {α : Type} (d : α) : Memory α → Nat → α
  | [], _ => d
  | (b, v) :: m, a => if a = b then v else Memory.read d m a

/-- The canonical form: addresses strictly rising from `lo`, no cell equal to what an unlisted address reads as. -/
def Memory.wfFrom {α : Type} [DecidableEq α] (d : α) : Nat → Memory α → Bool
  | _, [] => true
  | lo, (b, v) :: m => decide (lo ≤ b) && decide (v ≠ d) && Memory.wfFrom d (b + 1) m

/-- The canonical form of a memory. -/
def Memory.wf {α : Type} [DecidableEq α] (d : α) (m : Memory α) : Bool := Memory.wfFrom d 0 m

/-- A cell put in front, unless it is what an unlisted address reads as. -/
def Memory.cell {α : Type} [DecidableEq α] (d : α) (a : Nat) (v : α) (m : Memory α) : Memory α :=
  if v = d then m else (a, v) :: m

/-- A write, which keeps the canonical form. -/
def Memory.write {α : Type} [DecidableEq α] (d : α) : Memory α → Nat → α → Memory α
  | [], a, v => Memory.cell d a v []
  | (b, w) :: m, a, v =>
    if a < b then Memory.cell d a v ((b, w) :: m)
    else if a = b then Memory.cell d a v m
    else (b, w) :: Memory.write d m a v

/-- The cells at `lo` .. `hi` − 1 set to what an unlisted address reads as. -/
def Memory.clear {α : Type} (m : Memory α) (lo hi : Nat) : Memory α :=
  m.filter fun c => c.1 < lo || hi ≤ c.1

/-- Writes of consecutive cells from an address. -/
def Memory.writeList {α : Type} [DecidableEq α] (d : α) (m : Memory α) (a : Nat) : List α → Memory α
  | [] => m
  | v :: vs => Memory.writeList d (Memory.write d m a v) (a + 1) vs

/-- `n` consecutive cells from an address. -/
def Memory.readList {α : Type} (d : α) (m : Memory α) (a n : Nat) : List α :=
  (List.range n).map fun i => Memory.read d m (a + i)

/-! ### What unlisted addresses read as -/

/-- A bank word nothing has written: zero and clean (Table 23, after the loader; before it, log 13). -/
def StoredWord.zero : StoredWord := ⟨0, 0⟩

/-- A blank key array word (R116). -/
def KeyWord.blank : KeyWord := ⟨0, false⟩

/-- An erased flash byte: all bits set (R133). -/
def erasedByte : Byte := 0xFF

/-- A slot word not delivered nor written through. -/
def SlotWord.none : SlotWord := ⟨0, false⟩

/-! ### Banks -/

/-- The words of a physical bank. -/
def Store.words (st : Store) : Bank → Memory StoredWord
  | .a => st.bankA
  | .b => st.bankB

/-- The store with the words of one bank replaced. -/
def Store.setWords (st : Store) (bank : Bank) (m : Memory StoredWord) : Store :=
  match bank with
  | .a => { st with bankA := m }
  | .b => { st with bankB := m }

/-- The geometry record of a physical bank (R65). -/
def Store.geometry (st : Store) : Bank → Option Geometry
  | .a => st.geomA
  | .b => st.geomB

/-- The store with one geometry record replaced. -/
def Store.setGeometry (st : Store) (bank : Bank) (g : Option Geometry) : Store :=
  match bank with
  | .a => { st with geomA := g }
  | .b => { st with geomB := g }

/-- The other bank. -/
def otherBank : Bank → Bank
  | .a => .b
  | .b => .a

/-- The bank that holds the role LOAD (R67). -/
def Store.load (st : Store) : Bank := otherBank st.active

/-- The stored word at an address of a bank. -/
def Store.wordAt (st : Store) (bank : Bank) (a : Nat) : StoredWord := (st.words bank).read .zero a

/-- Data bits as every write stores them: the two spare bits are 0 (R64). -/
def stripSpare (w : Word) : Word := w &&& 0x3FFFFFFF

/-- A write to a bank word: the data, spare bits 0, with fresh check bits (R63, R64). -/
def Store.writeWord (st : Store) (bank : Bank) (a : Nat) (w : Word) : Store :=
  st.setWords bank ((st.words bank).write .zero a ⟨stripSpare w, 0⟩)

/-! ### Geometry records -/

/-- ceil((size − 1) / pitch) + 1, the node count of one direction (R65). -/
def nodeCount (size pitch : Nat) : Nat := (size - 1 + pitch - 1) / pitch + 1

/-- C_n (R65). -/
def Geometry.cols (g : Geometry) : Nat := nodeCount g.w g.p

/-- R_n (R65). -/
def Geometry.rows (g : Geometry) : Nat := nodeCount g.h g.p

/-- The words of one node row, C_n · K (R66). -/
def Geometry.rowWords (g : Geometry) : Nat := g.cols * g.k

/-- The number of words the record lays out, C_n · R_n · K (R65). -/
def Geometry.count (g : Geometry) : Nat := g.cols * g.rows * g.k

/-- The field ranges of Table 25. -/
def Geometry.fieldsOk (g : Geometry) : Bool :=
  64 ≤ g.w && g.w ≤ 7680 && 64 ≤ g.h && g.h ≤ 4320 && (g.p == 8 || g.p == 16 || g.p == 32) &&
    1 ≤ g.k && g.k ≤ 6 && g.s ≤ 3

/-- The capacity condition of Table 25. -/
def Geometry.capacityOk (g : Geometry) : Bool := g.count ≤ Config.bankWords

/-- Levels above `lo`, strictly increasing, none above 16383. -/
def levelsAbove (lo : Nat) : List Nat → Bool
  | [] => true
  | l :: ls => lo < l && l ≤ 16383 && levelsAbove l ls

/-- The level conditions of Table 25: strictly increasing, L_0 ≥ 1, the last at most 16383. -/
def Geometry.levelsOk (g : Geometry) : Bool := g.levels.length == g.k && levelsAbove 0 g.levels

/-- A valid record (R65). -/
def Geometry.valid (g : Geometry) : Bool := g.fieldsOk && g.capacityOk && g.levelsOk

/-- The word address of node row j, node column i, plane k (R66). -/
def Geometry.address (g : Geometry) (j i k : Nat) : Nat := (j * g.cols + i) * g.k + k

/-- The node row of a word address, if it belongs to one (R66). -/
def Geometry.rowOf (g : Geometry) (a : Nat) : Option Nat :=
  if a < g.count then some (a / g.rowWords) else none

/-! ### Anchors, entries, slot records -/

/-- Anchor `i` of 1 to 7; number 0 names none and contributes 0 (R87). -/
def Engine.anchor (e : Engine) (i : Nat) : Anchor :=
  if i = 0 then ⟨0, .none⟩ else e.anchors.getD (i - 1) ⟨0, .none⟩

/-- Anchor `i` written; number 0 has nothing to change (R87). -/
def Engine.setAnchor (e : Engine) (i : Nat) (v : Anchor) : Engine :=
  if i = 0 then e else { e with anchors := e.anchors.set (i - 1) v }

/-- A profile entry (R104); an index without an entry is invalid. -/
def Region.entry (r : Region) (i : Nat) : Option Profile := r.entries.getD i none

/-- The selected entry (R105). -/
def Region.selectedEntry (r : Region) : Option Profile :=
  match r.selected with
  | none => none
  | some i => r.entry i

/-- A slot record (R113). -/
def KeyUnit.record (k : KeyUnit) (s : Nat) : KeyRecord := k.records.getD s ⟨.empty, none⟩

/-- A slot record written. -/
def KeyUnit.setRecord (k : KeyUnit) (s : Nat) (r : KeyRecord) : KeyUnit := { k with records := k.records.set s r }

/-- The key array word `i` of slot area `s` (R116). -/
def KeyUnit.areaWord (k : KeyUnit) (s i : Nat) : KeyWord := k.array.read .blank (Config.slotAreaWords * s + i)

/-- The staging buffer cleared and bound to no slot (R114). -/
def KeyUnit.unbind (k : KeyUnit) : KeyUnit := { k with bound := none, received := 0, buffer := [] }

/-- A slot is STAGING or LOCKING (R115). -/
def KeyUnit.inFlight (k : KeyUnit) : Bool :=
  k.records.any fun r => r.state == .staging || r.state == .locking

/-- The locked class set (R115), bit c for class c. -/
def KeyUnit.lockedClasses (k : KeyUnit) : BitVec 8 :=
  k.records.foldl (fun m r =>
    match r.state, r.fields with
    | .locked, some f => m ||| (1#8 <<< f.cls)
    | _, _ => m) 0

/-- Every class of `required` is in `locked` (R110). -/
def classesMet (required locked : BitVec 8) : Bool := (required &&& ~~~locked) == 0

/-! ### Counters -/

/-- A count that stops at a top value (R46, R47, R57). -/
def countUp (top n : Nat) : Nat := if n < top then n + 1 else n

/-- A 0..65535 counter of the link receiver; past 65535 it is free (log 12). -/
def nextCount (n : Nat) : Nat := if n < 65535 then n + 1 else Config.countPastTop.toNat

/-! ### Flash -/

/-- Image word `m` of the flash: byte address 4m holds its first byte (R165). -/
def flashWord (f : List Host.Cell) (m : Nat) : Word :=
  byteWord (Memory.read erasedByte f (4 * m)) (Memory.read erasedByte f (4 * m + 1))
    (Memory.read erasedByte f (4 * m + 2)) (Memory.read erasedByte f (4 * m + 3))

/-- `n` words of the flash from word `m`. -/
def flashWords (f : List Host.Cell) (m n : Nat) : List Word := (List.range n).map fun i => flashWord f (m + i)

/-- Words written to the flash from word `m` on (R165). -/
def flashWrite (f : List Host.Cell) (m : Nat) (ws : List Word) : List Host.Cell :=
  Memory.writeList erasedByte f (4 * m) (wordsBytes ws)

/-- Bytes of a sector and words of a page (R135: 4,096 bytes, 256 bytes). -/
def sectorBytes : Nat := 4096

/-- Words of one page. -/
def pageWords : Nat := 64

/-- A sector erased (R133: erased flash reads as all bits set). -/
def flashErase (f : List Host.Cell) (sector : Nat) : List Host.Cell :=
  Memory.clear f (sectorBytes * sector) (sectorBytes * (sector + 1))

end Sys2Proof.Machine
end

