-- ==== Sys2Proof/Machine/Operands.lean ====
section
/-! DEFINITION. Every operand word a command reads and every payload word a reply carries (11_formats.md, Tables 56 to
61). -/

namespace Sys2Proof.Machine

/-! ### Codes (Table 56) -/

/-- A bank role as a command names it (R67). -/
inductive Role where
  | active
  | load
  deriving DecidableEq, Repr

def bankCode : Bank → Nat
  | .a => 0
  | .b => 1

/-- Physical bank in a report: 2 is none. -/
def optBankCode : Option Bank → Nat
  | none => 2
  | some x => bankCode x

def frameModeCode : FrameMode → Nat
  | .bypass => 0
  | .full => 1
  | .mismatch => 2
  | .freeRun => 3

def pipeModeCode : PipeMode → Nat
  | .bypass => 0
  | .full => 1

/-- The width as the number itself (R165). -/
def Depth.width : Depth → Nat
  | .d8 => 8
  | .d10 => 10
  | .d12 => 12

def roundingCode : Rounding → Nat
  | .nearest => 0
  | .truncate => 1
  | .ordered => 2

def anchorModeCode : AnchorMode → Nat
  | .none => 0
  | .onWrite => 1
  | .onReadAndWrite => 2

def reasonCode : Reason → Nat
  | .busy => 1
  | .held => 2
  | .state => 3
  | .unknown => 4
  | .format => 5
  | .index => 6
  | .length => 7
  | .address => 8
  | .geometry => 9
  | .levels => 10
  | .slot => 11
  | .order => 12
  | .mismatch => 13
  | .keysMissing => 14
  | .noRegion => 15
  | .aborted => 16
  | .program => 17
  | .flash => 18
  | .ecc => 19

def holdCauseCode : HoldCause → Nat
  | .refusal r => reasonCode r
  | .check => 20
  | .overrun => 21

def lifecycleCode : Lifecycle → Nat
  | .starting => 0
  | .factory => 1
  | .committing => 2
  | .commissioned => 3

def outcomeCode : StartOutcome → Nat
  | .pending => 0
  | .valid => 1
  | .blank => 2
  | .invalid => 3
  | .keys => 4
  | .flash => 5

def conditionCode : Condition → Nat
  | .nodeEcc => 0
  | .clipLow => 1
  | .clipHigh => 2
  | .limit => 3

def channelCode : Channel → Nat
  | .r => 0
  | .g => 1
  | .b => 2

def slotStateCode : SlotState → Nat
  | .empty => 0
  | .staging => 1
  | .locking => 2
  | .locked => 3
  | .damaged => 4

def commitPhaseCode : CommitPhase → Nat
  | .erase => 0
  | .header => 1
  | .words => 2
  | .trailer => 3

/-- Completion and reason bytes of a reply: the reason is 0 when the completion is DONE (R167). -/
def completionCodes : Completion → Nat × Nat
  | .done => (0, 0)
  | .refused r => (1, reasonCode r)
  | .failed r => (2, reasonCode r)

def roleOf (w : Word) : Option Role :=
  match bits w 31 30 with
  | 0 => some .active
  | 1 => some .load
  | _ => none

def pipeModeOf : Nat → Option PipeMode
  | 0 => some .bypass
  | 1 => some .full
  | _ => none

def depthOf : Nat → Option Depth
  | 8 => some .d8
  | 10 => some .d10
  | 12 => some .d12
  | _ => none

def roundingOf : Nat → Option Rounding
  | 0 => some .nearest
  | 1 => some .truncate
  | 2 => some .ordered
  | _ => none

def anchorModeOf : Nat → Option AnchorMode
  | 0 => some .none
  | 1 => some .onWrite
  | 2 => some .onReadAndWrite
  | _ => none

/-- Word `i` (from 0) of a payload; a payload that ends before it has none, and no test that passes reads it. -/
def word (payload : List Word) (i : Nat) : Word := payload.getD i 0

/-! ### Marks and classes -/

/-- Condition marks: bit 3 NODE_ECC, 2 CLIP_LOW, 1 CLIP_HIGH, 0 LIMIT (Table 56). -/
def marksWord (m : Marks) : Word :=
  putBit m.nodeEcc 3 ||| putBit m.clipLow 2 ||| putBit m.clipHigh 1 ||| putBit m.limit 0

def marksOf (w : Word) : Marks := ⟨w.getLsbD 3, w.getLsbD 2, w.getLsbD 1, w.getLsbD 0⟩

/-- Required class marks, bits 7..1 (Table 56). -/
def classesOf (w : Word) : BitVec 8 := w.extractLsb' 0 8 &&& 0xFE

/-! ### Node words and store commands (Table 57) -/

/-- The three signed deltas of a node-plane word (R64). -/
def deltaOf (w : Word) : Channel → Int
  | .r => (w.extractLsb' 20 10).toInt
  | .g => (w.extractLsb' 10 10).toInt
  | .b => (w.extractLsb' 0 10).toInt

/-- A NODE READ result word: the delta fields, spare bits 0 but for the damaged marker, bit 30 (R97). -/
def readWord (w : Word) (damaged : Bool) : Word := stripSpare w ||| putBit damaged 30

/-- The base anchor number of an addressing word (R90). -/
def baseOf (w : Word) : Nat := bits w 29 27

/-- The index anchor number of an addressing word (R90). -/
def indexOf (w : Word) : Nat := bits w 26 24

/-- The effective address EA = (value(b) + value(x) + d) mod 2^20 (R91). -/
def effectiveAddress (e : Engine) (w : Word) : BitVec 20 :=
  (e.anchor (baseOf w)).value + (e.anchor (indexOf w)).value + (w.extractLsb' 0 16).signExtend 20

def Store.bankOf (st : Store) : Role → Bank
  | .active => st.active
  | .load => st.load

/-- Next address (NODE WRITE, NODE FILL reply). -/
def addressWord (a : Nat) : Word := put a 19 0

/-- NODE FILL residual and condition code, 0 when the residual is 0 and 1 above (R99). -/
def residualWord (r : Nat) : Word := putBit (r != 0) 31 ||| put r 19 0

/-- Anchor word (ANCHOR SET reply, ANCHOR READ). -/
def anchorWord (i : Nat) (a : Anchor) : Word :=
  put (anchorModeCode a.mode) 29 28 ||| put i 26 24 ||| put a.value.toNat 19 0

/-- The five geometry words; levels at positions K and above are 0 (R102, Table 57). -/
def geometryWords (g : Geometry) : List Word :=
  [put g.w 31 16 ||| put g.h 15 0,
   put g.p 23 16 ||| put g.k 15 8 ||| put g.s 7 0,
   put (g.levels.getD 0 0) 31 16 ||| put (g.levels.getD 1 0) 15 0,
   put (g.levels.getD 2 0) 31 16 ||| put (g.levels.getD 3 0) 15 0,
   put (g.levels.getD 4 0) 31 16 ||| put (g.levels.getD 5 0) 15 0]

/-- The record that five geometry words give; levels at positions K and above are ignored (R100). -/
def geometryOf (ws : List Word) : Geometry where
  w := bits (word ws 0) 31 16
  h := bits (word ws 0) 15 0
  p := bits (word ws 1) 23 16
  k := bits (word ws 1) 15 8
  s := bits (word ws 1) 7 0
  levels := [bits (word ws 2) 31 16, bits (word ws 2) 15 0, bits (word ws 3) 31 16, bits (word ws 3) 15 0,
    bits (word ws 4) 31 16, bits (word ws 4) 15 0].take (bits (word ws 1) 15 8)

/-- The GEOMETRY READ payload of a bank (R102). -/
def geometryPayload (bank : Bank) : Option Geometry → List Word
  | none => [put (bankCode bank) 1 0]
  | some g => (putBit true 31 ||| put (bankCode bank) 1 0) :: geometryWords g ++
      [put g.cols 31 16 ||| put g.rows 15 0, put g.count 19 0]

/-- The three words of a log entry. -/
def logEntryWords (e : LogEntry) : List Word :=
  [put (bankCode e.bank) 31 31 |||
     (match e.kind with
      | .corrected i => putBit true 29 ||| put i 21 16
      | .uncorrectable => putBit true 30) ||| put e.count 7 0,
   put e.addr 19 0, e.first]

/-! ### Pipeline and monitor (Table 58) -/

/-- A settings word. -/
def settingsWord (mode : Nat) (din dout : Depth) (rounding : Rounding) (masks : Marks) : Word :=
  put mode 27 24 ||| put din.width 23 16 ||| put dout.width 15 8 ||| put (roundingCode rounding) 7 4 |||
    marksWord masks

/-- The two gain words. -/
def gainWords (g : Gains) : List Word := [put g.r 31 16 ||| put g.g 15 0, put g.b 31 16]

/-- A bank word (PIPE READ words 5 and 12). -/
def pipeBankWord (bank : Bank) (g : Option Geometry) : Word := putBit g.isSome 31 ||| put (bankCode bank) 1 0

/-- The two window words. -/
def rectWords (r : Rect) : List Word := [put r.x0 31 16 ||| put r.y0 15 0, put r.x1 31 16 ||| put r.y1 15 0]

/-- An applied window; the empty-window marking is 65535, 65535, 0, 0 (R56). -/
def windowWords : Window → List Word
  | .empty => rectWords ⟨65535, 65535, 0, 0⟩
  | .rect r => rectWords r

/-- The rectangle that two window words give (R55). -/
def rectOf (w0 w1 : Word) : Rect := ⟨bits w0 31 16, bits w0 15 0, bits w1 31 16, bits w1 15 0⟩

/-- A signed 16-bit field (R165). -/
def signedField (v : Int) : Nat := (BitVec.ofInt 16 v).toNat

/-- The CAPTURE READ payload (R52). -/
def capturePayload : Option Capture → List Word
  | none => [0]
  | some c =>
    [1, c.frame, put c.x 31 16 ||| put c.y 15 0,
     putBit c.delta.isSome 31 ||| putBit c.before.isSome 30 ||| put (channelCode c.channel) 29 28 |||
       put (conditionCode c.condition) 27 26 ||| put c.w 13 0,
     put (signedField (c.delta.getD 0)) 31 16 ||| put (signedField (c.before.getD 0)) 15 0]

/-- The twelve words of a report (R61). -/
def reportWords (r : Report) : List Word :=
  [r.frame,
   putBit r.measured.isSome 31 ||| put (frameModeCode r.mode) 29 28 ||| put (optBankCode r.bank) 25 24 |||
     put r.serviceRows 3 0,
   put (r.measured.elim 0 Size.width) 31 16 ||| put (r.measured.elim 0 Size.height) 15 0] ++
  windowWords r.window ++
  [put r.pixels 31 0, r.signature, put r.counts.nodeEcc 23 0, put r.counts.clipLow 23 0, put r.counts.clipHigh 23 0,
   put r.counts.limit 23 0, put r.trapped 23 0]

/-! ### Region and keys (Table 59) -/

/-- The index field of the region commands and the slot field of the key commands: bits 31..24. -/
def topByte (w : Word) : Nat := bits w 31 24

/-- Profile words 2 and 3. -/
def profileTail (p : Profile) : List Word :=
  [put p.ceiling 31 16 ||| put p.gains.r 15 0, put p.gains.g 31 16 ||| put p.gains.b 15 0]

/-- Profile words 1 to 3 as the image holds them. -/
def profileWords (index : Nat) (p : Profile) : List Word :=
  (put index 31 24 ||| p.required.setWidth 32) :: profileTail p

/-- The profile that three profile words give, before any clamping. -/
def profileOf (w0 w1 w2 : Word) : Profile where
  ceiling := bits w1 31 16
  gains := ⟨bits w1 15 0, bits w2 31 16, bits w2 15 0⟩
  required := classesOf w0

/-- A profile as PROFILE WRITE stores it (R107). -/
def Profile.clamp (p : Profile) : Profile :=
  { p with ceiling := min p.ceiling 16383, gains := ⟨min p.gains.r 4096, min p.gains.g 4096, min p.gains.b 4096⟩ }

/-- The ranges of Table 33. -/
def Profile.inRange (p : Profile) : Bool :=
  p.ceiling ≤ 16383 && p.gains.r ≤ 4096 && p.gains.g ≤ 4096 && p.gains.b ≤ 4096

/-- The PROFILE READ status word (R108). -/
def profileStatus (r : Region) (locked : BitVec 8) (i : Nat) : Word :=
  put i 31 24 ||| putBit (r.entry i).isSome 23 ||| putBit (r.selected == some i) 22 |||
    put locked.toNat 15 8 ||| (match r.entry i with
      | none => 0
      | some p => p.required.setWidth 32)

/-- The PROFILE READ payload (R108). -/
def profilePayload (r : Region) (locked : BitVec 8) (i : Nat) : List Word :=
  profileStatus r locked i :: (match r.entry i with
    | none => []
    | some p => profileTail p)

/-- The REGION SELECT reply (R109). -/
def selectWord (now : Nat) (before : Option Nat) : Word :=
  put now 31 24 ||| put (before.getD 0) 15 8 ||| putBit before.isNone 7

/-- The key reply word: slot, state, words failed. -/
def keyWord (slot : Nat) (st : SlotState) (failed : Nat) : Word :=
  put slot 31 24 ||| put (slotStateCode st) 18 16 ||| put failed 8 0

/-- The KEY QUERY payload (R123). -/
def keyQueryPayload (k : KeyUnit) (slot : Nat) : List Word :=
  let r := k.record slot
  [put slot 31 27 ||| put (slotStateCode r.state) 26 24 ||| putBit r.fields.isSome 23 |||
     putBit (r.state == .staging) 22 ||| put (r.fields.elim 0 KeyFields.cls) 21 19 |||
     put (r.fields.elim 0 KeyFields.length / 4) 17 9 |||
     (if r.state == .staging then put (k.received / 4) 8 0 else 0),
   r.fields.elim 0 KeyFields.check]

/-! ### Engine (Table 60) -/

/-- The three hold words of STATUS and RELEASE; all 0 when not held (R150, R155). -/
def holdWords : Option HoldRecord → List Word
  | none => [0, 0, 0]
  | some h =>
    [putBit true 31 ||| put (holdCauseCode h.cause) 28 24 ||| putBit h.tag.isSome 23 ||| putBit h.row.isSome 22 |||
       put (h.row.getD 0) 19 16 ||| put (h.tag.elim 0 BitVec.toNat) 7 0,
     putBit h.address.isSome 31 ||| put (h.address.getD 0) 19 0,
     h.frame]

/-- The eight words of STATUS (Table 49). -/
def statusPayload (lifecycle : Lifecycle) (outcome : StartOutcome) (hold : Option HoldRecord) : List Word :=
  [put 7140 31 16 ||| put 1 7 0,
   put Config.bankWords 31 0,
   put Config.keySlots 23 16 ||| put Config.profileEntries 15 8 ||| put 7 7 0,
   put Config.commandQueueSize 31 16 ||| put Config.replyQueueSize 15 8 ||| put Config.maxPayload 7 0,
   put (outcomeCode outcome) 10 8 ||| put (lifecycleCode lifecycle) 1 0] ++ holdWords hold

/-- Word 1 of a FAILED COMMIT reply: phase reached and node words taken (Table 60). -/
def commitFailedWord (c : Commit) : Word := put (commitPhaseCode c.phase) 25 24 ||| put c.taken 19 0

/-- Word 2 of a FAILED COMMIT reply (R137, R138). -/
def commitStopWord : CommitStop → Word
  | .flash a => put a 21 0
  | .ecc bank a => put (bankCode bank) 31 31 ||| put a 19 0
  | .abort _ => 0

/-! ### Reply packet (Table 55) -/

/-- The summary field: bits 15..14 lifecycle, then 13 down to 7. -/
def summaryField (s : Summary) : BitVec 16 :=
  (put (lifecycleCode s.lifecycle) 15 14 ||| putBit s.held 13 ||| putBit s.captureFilled 12 |||
    putBit s.anySticky 11 ||| putBit s.logNonEmpty 10 ||| putBit s.commitFailed 9 ||| putBit s.activatePending 8 |||
    putBit s.keyInFlight 7).setWidth 16

/-- The bytes of a reply before its check (R167). -/
def replyBody (r : Reply) (credits : Nat) : List Byte :=
  [r.tag, r.code, BitVec.ofNat 8 (completionCodes r.completion).1, BitVec.ofNat 8 (completionCodes r.completion).2] ++
    halfBytes (summaryField r.summary) ++ halfBytes (BitVec.ofNat 16 credits) ++
    halfBytes (BitVec.ofNat 16 r.payload.length) ++ wordsBytes r.payload

/-- The bytes of a reply on the lane, with its check (R163, R167). -/
def replyBytes (r : Reply) (credits : Nat) : List Byte :=
  replyBody r credits ++ halfBytes (crc16 (replyBody r credits))

/-! ### Commissioned image (Table 61) -/

/-- The format tag, image word 0. -/
def formatTag : Word := 0x7140C1A5

/-- The twelve header words (R133, R135, Table 61). -/
def headerWords (g : Geometry) (index : Nat) (p : Profile) (c : PendingContext) : List Word :=
  [formatTag, put (lifecycleCode .commissioned) 1 0] ++ geometryWords g ++ profileWords index p ++
    [settingsWord (pipeModeCode .full) c.din c.dout c.rounding c.masks, put g.count 19 0]

/-- Words of the header. -/
def headerSize : Nat := 12

/-- The header that twelve words hold, if it passes test 2 of R144. -/
def headerOf (ws : List Word) : Option ImageHeader :=
  let g := geometryOf (ws.drop 2)
  let p := profileOf (word ws 7) (word ws 8) (word ws 9)
  match depthOf (bits (word ws 10) 23 16), depthOf (bits (word ws 10) 15 8), roundingOf (bits (word ws 10) 7 4) with
  | some din, some dout, some rnd =>
    if g.valid && bits (word ws 11) 19 0 == g.count && decide (topByte (word ws 7) < Config.profileEntries) && p.inRange then
      some { geometry := g, index := topByte (word ws 7), profile := p, din := din, dout := dout, rounding := rnd,
             masks := marksOf (word ws 10), n := g.count }
    else none
  | _, _, _ => none

/-! ### Key array words (Table 62) -/

/-- The descriptor word: class and declared length. -/
def descriptorWord (f : KeyFields) : Word := put f.cls 18 16 ||| put f.length 10 0

/-- The completion pattern (R168). -/
def completionPattern : Word := 0x9E3C1B67

/-- The void pattern (R168). -/
def voidPattern : Word := 0x5A5AC3C3

end Sys2Proof.Machine
end

