-- ==== Sys2Proof/Machine/Flags.lean ====
section
/-! DEFINITION. The flags of the part: condition marks and the summary that every reply carries (R46, R49, Table 48). -/

namespace Sys2Proof.Machine

/-- The mark of one condition. -/
def Marks.get (m : Marks) : Condition → Bool
  | .nodeEcc => m.nodeEcc
  | .clipLow => m.clipLow
  | .clipHigh => m.clipHigh
  | .limit => m.limit

/-- The marks with one condition's set. -/
def Marks.raise (m : Marks) : Condition → Marks
  | .nodeEcc => { m with nodeEcc := true }
  | .clipLow => { m with clipLow := true }
  | .clipHigh => { m with clipHigh := true }
  | .limit => { m with limit := true }

/-- At least one mark is set (R49). -/
def Marks.any (m : Marks) : Bool := m.nodeEcc || m.clipLow || m.clipHigh || m.limit

/-- The frame counts with one condition counted, each stopping at 16,777,215 (R46). -/
def Counts.add (c : Counts) : Condition → Counts
  | .nodeEcc => { c with nodeEcc := countUp Config.countTop c.nodeEcc }
  | .clipLow => { c with clipLow := countUp Config.countTop c.clipLow }
  | .clipHigh => { c with clipHigh := countUp Config.countTop c.clipHigh }
  | .limit => { c with limit := countUp Config.countTop c.limit }

/-- The summary at this moment (Table 48). -/
def State.summary (s : State) : Summary where
  lifecycle := s.life.lifecycle
  held := s.eng.hold.isSome
  captureFilled := s.mon.capture.isSome
  anySticky := s.mon.sticky.any
  logNonEmpty := !s.store.log.isEmpty
  commitFailed := s.life.commitFailed
  activatePending := s.store.activatePending
  keyInFlight := s.key.inFlight

end Sys2Proof.Machine
end

