-- ==== Sys2Proof/WellFormed.lean ====
section
/-! DEFINITION. Which commands can exist: a packet a service line can carry, a word and a bit that the part has. -/

namespace Sys2Proof

/-- A service packet carries 1 to 128 payload words (R160: length code 0..127, length code + 1 words). -/
def payloadOk (payload : List Word) : Bool :=
  1 ≤ payload.length && payload.length ≤ Config.maxPayload

/-- A code that names one of the 31 commands (R148). -/
def knownCode (code : Byte) : Bool := Config.commandCodes.contains code

/-- A stored bit of a bank word: address 0..786,431 and bit 0..38 (R63, R74). -/
def bankBitOk (address bit : Nat) : Bool := address < Config.bankWords && bit < 39

/-- A bit of a word of a slot area: slot 0..23, word 0..259, bit 0..31 (R116). -/
def keyBitOk (slot word bit : Nat) : Bool :=
  slot < Config.keySlots && word < Config.slotAreaWords && bit < 32

/-- A command that can exist. -/
def Instr.wf : Instr → Bool
  | .status _ p | .release _ p | .restart _ p | .anchorSet _ p | .anchorRead _ p | .nodeWrite _ p
  | .nodeRead _ p | .nodeFill _ p | .geometrySet _ p | .geometryRead _ p | .activate _ p | .logRead _ p
  | .logClear _ p | .pipeSet _ p | .pipeRead _ p | .windowSet _ p | .reportRead _ p | .conditionsRead _ p
  | .captureRead _ p | .captureClear _ p | .profileWrite _ p | .profileRead _ p | .regionSelect _ p
  | .keyOpen _ p | .keyData _ p | .keyLock _ p | .keyAbandon _ p | .keyQuery _ p | .commit _ p
  | .commitAbort _ p | .reopen _ p => payloadOk p
  | .unknownCode _ c p => payloadOk p && !knownCode c
  | .storageFault _ a i => bankBitOk a i
  | .keyArrayStorageFault s w i => keyBitOk s w i
  | .powerRemoval _ _ f => f.length ≤ 1024
  | .flashOperationEnd _ l => l.length ≤ 1024
  | .powerOn _ | .inputFrameStart _ | .rowEnd | .inputFrameEnd | .linkLoss | .pixelReceived _ _ _
  | .pixelProcess | .deadlineExpiry | .freeRunFrameEnd | .fetchWordRead | .scrubWriteBack
  | .engineWordWrite | .engineWordRead | .commitReaderWord | .keyWordProgrammed _ | .keyVerifyEnd
  | .keyArrayScanEnd | .loaderWordWrite _ | .startUpLoadEnd _ | .replyTransmissionEnd _
  | .freeRunPixelSent => true

end Sys2Proof
end

