-- ==== Sys2Proof/Machine/Engine.lean ====
section
/-! DEFINITION. The command engine's shared operations: hold, replies and their admission, the tests of R148, and the
taking of a packet (Chapter 9). -/

namespace Sys2Proof.Machine

/-- The answer of every meaning. -/
abbrev Answer := Host.Outcome State Fault Refusal

/-! ### Hold -/

/-- Hold is entered with a record, unless the engine is held already (R149). -/
def enterHold (cause : HoldCause) (tag : Option Byte) (row : Option Nat) (address : Option Nat) (s : State) : State :=
  match s.eng.hold with
  | some _ => s
  | none => { s with eng.hold := some { cause := cause, tag := tag, row := row, address := address,
                                        frame := s.timing.frameNumber } }

/-! ### Replies -/

/-- The free entries of the command queue (R154). -/
def credits (s : State) : Nat := Config.commandQueueSize - s.eng.queue.length

/-- The lane begins to send the oldest reply when it is IDLE and there is one, filling the credits (R154, R163). -/
def startLane (s : State) : State :=
  match s.ret.lane, s.ret.queue with
  | .idle, _ :: _ => { s with ret.lane := .sending (credits s) }
  | _, _ => s

/-- The reply queue has a free entry and no reply waits for space (R152). -/
def hasRoom (s : State) : Bool := s.ret.queue.length < Config.replyQueueSize && s.ret.waiting.isEmpty

/-- A built reply is offered to the reply queue: it enters at once, or waits for space (R152). -/
def offer (by_ : Poster) (r : Reply) (s : State) : State :=
  if hasRoom s then startLane { s with ret.queue := s.ret.queue ++ [r] }
  else { s with ret.waiting := s.ret.waiting ++ [{ poster := by_, owed := s.eng.restarting, reply := r }] }

/-- A reply is built, with the summary of this moment, and offered (R151, R152). -/
def post (by_ : Poster) (tag code : Byte) (c : Completion) (payload : List Word) (s : State) : State :=
  offer by_ { tag := tag, code := code, completion := c, summary := s.summary, payload := payload } s

/-- The block has no reply waiting, and none to post behind one (R153). -/
def blockFree (by_ : Poster) (s : State) : Bool :=
  s.ret.waiting.all (fun w => w.poster != by_) && s.ret.later.all (fun x => x.poster != by_)

/-- A block that carries deferred work posts its reply (R151, R152): at once, or, while another reply of the block
waits, when that one has been admitted (R153; log 24). -/
def postDeferred (by_ : Poster) (tag code : Byte) (c : Completion) (payload : List Word) (s : State) : State :=
  if blockFree by_ s then post by_ tag code c payload s
  else
    let x : Post := { poster := by_, owed := s.eng.restarting, tag := tag, code := code, completion := c,
                      payload := payload }
    { s with ret.later := s.ret.later ++ [x] }

/-- The first reply that a block has still to post, and the others. -/
def takePost (by_ : Poster) : List Post → Option (Post × List Post)
  | [] => none
  | x :: xs =>
    if x.poster = by_ then some (x, xs)
    else match takePost by_ xs with
      | none => none
      | some (y, rest) => some (y, x :: rest)

/-- A COMMIT ABORT in hand completes "when the COMMIT reply has been posted" (R138, R147): not before its commit's
reply is taken from its holder, and not while the lifecycle controller has a reply still to post (log 24). -/
def completeAbort (s : State) : State :=
  match s.eng.inHand with
  | some (.abort tag) =>
    if s.eng.holdCommit.isNone && s.ret.later.all (fun x => x.poster != .life) then
      post .engine tag 0x81 .done [] { s with eng.inHand := none }
    else s
  | _ => s

/-- A block whose waiting reply has been admitted posts the next one, if it has one (R153; log 24); a COMMIT ABORT that
waited for that of the lifecycle controller completes (R138). -/
def postNext (by_ : Poster) (s : State) : State :=
  match takePost by_ s.ret.later with
  | none => s
  | some (x, rest) =>
    let t := post by_ x.tag x.code x.completion x.payload { s with ret.later := rest }
    if by_ = .life then completeAbort t else t

/-- The first waiting reply of a poster, and the others. -/
def takeWaiter (by_ : Poster) : List Waiter → Option (Waiter × List Waiter)
  | [] => none
  | w :: ws =>
    if w.poster = by_ then some (w, ws)
    else match takeWaiter by_ ws with
      | none => none
      | some (v, rest) => some (v, w :: rest)

/-- The arbiter of R153: the waiting reply of the highest rank. -/
def nextWaiter (ws : List Waiter) : Option (Waiter × List Waiter) :=
  match takeWaiter .store ws, takeWaiter .key ws, takeWaiter .life ws with
  | some x, _, _ => some x
  | none, some x, _ => some x
  | none, none, some x => some x
  | none, none, none => takeWaiter .engine ws

/-- A freed entry admits the waiting reply of the highest rank (R153), and its block posts the next it has. -/
def admitWaiter (s : State) : State :=
  match nextWaiter s.ret.waiting with
  | none => s
  | some (w, rest) =>
    if s.ret.queue.length < Config.replyQueueSize then
      postNext w.poster { s with ret.queue := s.ret.queue ++ [w.reply], ret.waiting := rest }
    else s

/-- Every reply that leaves or will leave the part, in queue order and then in the order of offering. -/
def State.outbox (s : State) : List Reply := s.ret.queue ++ s.ret.waiting.map Waiter.reply

/-- The bytes of the reply being sent (R163, R167). -/
def State.laneBytes (s : State) : List Byte :=
  match s.ret.lane, s.ret.queue with
  | .sending c, r :: _ => replyBytes r c
  | _, _ => []

/-- The RESTART reply is posted once every reply owed for the work broken off has entered the reply queue (R142). -/
def postRestart (s : State) : State :=
  match s.eng.holdRestart with
  | none => s
  | some tag =>
    if s.eng.holdActivate.isNone && s.eng.holdKeyLock.isNone && s.eng.holdCommit.isNone &&
        s.ret.waiting.all (fun w => !w.owed) && s.ret.later.all (fun x => !x.owed) then
      postDeferred .life tag 0x03 .done [] { s with eng.holdRestart := none }
    else s

/-! ### The tests of R148 -/

/-- The rows of Table 46. -/
inductive Gate where
  /-- STATUS: served in every state. -/
  | status
  /-- Served in every state but STARTING, held or not. -/
  | plain
  /-- COMMIT ABORT. -/
  | abort
  /-- ANCHOR SET. -/
  | anchor
  /-- NODE WRITE to KEY ABANDON: the changing commands. -/
  | change
  /-- COMMIT. -/
  | commit
  /-- REOPEN. -/
  | reopen
  deriving DecidableEq, Repr

/-- The command changes state, so a held engine refuses it (step 2 of R148). -/
def Gate.changes : Gate → Bool
  | .anchor | .change | .commit | .reopen => true
  | .status | .plain | .abort => false

/-- Step 3 of R148: the refusals of the lifecycle state. -/
def lifecycleRefusal : Gate → Lifecycle → Option Reason
  | .abort, .factory => some .state
  | .abort, .commissioned => some .state
  | .anchor, .committing => some .busy
  | .change, .committing => some .busy
  | .change, .commissioned => some .state
  | .commit, .commissioned => some .state
  | .reopen, .factory => some .state
  | .reopen, .committing => some .busy
  | _, _ => none

/-- Steps 1 to 3 of R148, in order (Table 46). -/
def gateRefusal (g : Gate) (s : State) : Option Reason :=
  if s.life.lifecycle = .starting then (if g = .status then none else some .busy)
  else if g.changes && s.eng.hold.isSome then some .held
  else lifecycleRefusal g s.life.lifecycle

/-- The first test that fails gives the reason (R148). -/
def firstFailing : List (Bool × Reason) → Option Reason
  | [] => none
  | (bad, r) :: rest => if bad then some r else firstFailing rest

/-- The refusal of a command, if any: steps 1 to 3, then its own tests in their order (R148). -/
def refusal (g : Gate) (tests : List (Bool × Reason)) (s : State) : Option Reason :=
  match gateRefusal g s with
  | some r => some r
  | none => firstFailing tests

/-- An immediate reply DONE of the engine. -/
def done (p : Packet) (payload : List Word) (s : State) : State := post .engine p.tag p.code .done payload s

/-- An immediate refusal (R148). -/
def refuse (p : Packet) (r : Reason) (payload : List Word) (s : State) : State :=
  post .engine p.tag p.code (.refused r) payload s

/-- A refusal of NODE WRITE or NODE FILL: any reason but HELD enters hold first, so that the reply shows it (R93). -/
def refuseWrite (p : Packet) (r : Reason) (address : Option Nat) (s : State) : State :=
  if r = .held then refuse p r [] s
  else refuse p r [] (enterHold (.refusal r) (some p.tag) none address s)

/-- A command that is tested and, when no test refuses it, runs. -/
def tested (p : Packet) (g : Gate) (tests : List (Bool × Reason)) (run : State → State) (s : State) : State :=
  match refusal g tests s with
  | some r => refuse p r [] s
  | none => run s

/-- The LENGTH test of a payload. -/
def lengthIs (p : Packet) (n : Nat) : Bool × Reason := (p.payload.length != n, .length)

/-! ### Taking a packet -/

/-- The engine can take an entry: no command in hand, no reply of its own waiting, no RESTART accepted (R147). -/
def engineReady (s : State) : Bool :=
  s.powered && s.eng.inHand.isNone && !s.eng.restarting && s.ret.waiting.all (fun w => w.poster != .engine)

/-- `p` is the entry to take: the oldest of the command queue, or, when the queue is empty, a packet placed and taken
in one step (DESIGN CHOICE, log 2; safe). -/
def isNext (p : Packet) (s : State) : Bool :=
  match s.eng.queue with
  | [] => true
  | q :: _ => q == p

/-- The packet taken leaves the command queue (R147). -/
def dequeue (s : State) : State := { s with eng.queue := s.eng.queue.tail }

/-- The step in which the engine takes packet `p` and runs it. A packet that cannot exist faults; where the engine
cannot take it now, the step does not come about and nothing changes (DESIGN CHOICE, log 1; safe). -/
def take (p : Packet) (run : State → State) (s : State) : Answer :=
  if !payloadOk p.payload then .fault .noSuchPacket
  else if engineReady s && isNext p s then .next (run (dequeue s))
  else .next s

/-- An event of a part that has power; without power it has no effect (log 1). -/
def event (run : State → State) (s : State) : Answer := .next (if s.powered then run s else s)

end Sys2Proof.Machine
end

