-- ==== Sys2Proof/Machine/Store.lean ====
section
/-! DEFINITION. The correction store: checked reads, scrub, error log, the port's ranks, and the commands and events of
Chapter 4. -/

namespace Sys2Proof.Machine

/-! ### Check bits (R63, R75) -/

/-- The number of bits that are set. -/
def ones {n : Nat} (v : BitVec n) : Nat := (List.range n).countP v.getLsbD

/-- The 39 bits of a word stored with the check bits that some equations give. -/
def codeword (equations : Word → BitVec 7) (d : Word) : BitVec 39 := equations d ++ d

/-- What R63 says of the check bits: "they allow a read to correct any one flipped bit among the 39 and to detect any
two". The stored forms of two different words then differ in four bits or more. -/
def detects (equations : Word → BitVec 7) : Bool :=
  decide (∀ a b : Word, a ≠ b → 4 ≤ ones (codeword equations a ^^^ codeword equations b))

/-- The check bits that a data bit enters, for equations that `detects` holds of: 32 different sets of three. -/
def checkColumns : List (BitVec 7) :=
  [7, 11, 13, 14, 19, 21, 22, 25, 26, 28, 35, 37, 38, 41, 42, 44, 49, 50, 52, 56, 67, 69, 70, 73, 74, 76, 81, 82, 84,
   88, 97, 98]

/-- Equations that `detects` holds of (Laws/Check.lean): each check bit is the parity of the data bits in it. -/
def parityEquations (d : Word) : BitVec 7 :=
  (List.range 32).foldl (fun v i => if d.getLsbD i then v ^^^ checkColumns.getD i 0 else v) 0

/-- The 7 check bits of 32 data bits: those of `Config.checkEquations`, of which only what R63 says is known. They may
be any that do what R63 says; the parity equations only stand in where the free value does not (log 10). -/
def checkBits (d : Word) : BitVec 7 :=
  if detects Config.checkEquations then Config.checkEquations d else parityEquations d

/-! ### Checked reads (R74 to R76) -/

/-- The positions, 0..38, at which a stored word differs from its last written form (R63). -/
def StoredWord.errors (w : StoredWord) : List (Fin 39) := (List.finRange 39).filter fun i => w.flips.getLsbD i

/-- The 39 stored bits: data bits 0..31 and check bits 32..38 (R74). -/
def StoredWord.stored (w : StoredWord) : BitVec 39 := codeword checkBits w.data ^^^ w.flips

/-- Stored bits whose check bits are those of their data bits. -/
def isCodeword (v : BitVec 39) : Bool := v.extractLsb' 32 7 == checkBits (v.extractLsb' 0 32)

/-- What a read finds of stored bits, from these alone: "Every read of the same stored bits makes the same finding"
(R75). Bits that lie three or more from every word with its check bits are free (log 11). -/
def findingOf (v : BitVec 39) : Finding :=
  let flip (u : BitVec 39) (i : Fin 39) : BitVec 39 := u ^^^ (1#39 <<< i.val)
  if isCodeword v then .clean
  else match (List.finRange 39).find? (fun i => isCodeword (flip v i)) with
    | some i => .corrected i
    | none =>
      if (List.finRange 39).any fun i => (List.finRange 39).any fun j => isCodeword (flip (flip v i) j) then
        .uncorrectable
      else Config.deepFinding v

/-- What a checked read finds (Table 27): nothing, one flipped bit, two flipped bits; beyond that what the stored bits
give (R75). By R63 the first three are what the stored bits give, too. -/
def StoredWord.finding (w : StoredWord) : Finding :=
  match w.errors with
  | [] => .clean
  | [i] => .corrected i
  | [_, _] => .uncorrectable
  | _ => findingOf w.stored

/-- The data bits as stored. -/
def StoredWord.dataBits (w : StoredWord) : Word := w.data ^^^ w.flips.extractLsb' 0 32

/-- The word a checked read gives for a finding: as stored, or with the bit found flipped corrected (Table 27, R75). -/
def StoredWord.used (w : StoredWord) : Finding → Word
  | .corrected i => if i.val < 32 then w.dataBits ^^^ (1#32 <<< i.val) else w.dataBits
  | .clean => w.dataBits
  | .uncorrectable => w.dataBits

/-- The 39 stored bits of two words are equal (R77). Equal last written data and equal flipped bits settle it without
the check bits, as do differing data bits. -/
def StoredWord.sameStored (v w : StoredWord) : Bool :=
  v == w || (v.dataBits == w.dataBits && v.stored == w.stored)

/-! ### The error log (R78, R79) -/

/-- An entry of the log is about this word. -/
def LogEntry.about (e : LogEntry) (bank : Bank) (a : Nat) : Bool := e.bank == bank && e.addr == a

/-- An entry that a further finding meets (R78): one more occurrence, up to 255; UNCORRECTABLE prevails, and a
CORRECTED entry keeps its first bit position. -/
def LogEntry.again (e : LogEntry) (kind : ErrorKind) : LogEntry :=
  { e with
    count := countUp 255 e.count
    kind := match e.kind, kind with
      | .corrected _, .uncorrectable => .uncorrectable
      | k, _ => k }

/-- An entry is CORRECTED. -/
def LogEntry.isCorrected (e : LogEntry) : Bool :=
  match e.kind with
  | .corrected _ => true
  | .uncorrectable => false

/-- The log without its oldest CORRECTED entry, if it holds one. -/
def dropOldestCorrected : List LogEntry → Option (List LogEntry)
  | [] => none
  | e :: es =>
    if e.isCorrected then some es
    else match dropOldestCorrected es with
      | none => none
      | some rest => some (e :: rest)

/-- The log after a finding (R78, R79). -/
def logFinding (log : List LogEntry) (bank : Bank) (a : Nat) (kind : ErrorKind) (frame : BitVec 32) : List LogEntry :=
  if log.any (fun e => e.about bank a) then log.map fun e => if e.about bank a then e.again kind else e
  else if log.length < Config.logSize then log ++ [⟨bank, a, kind, frame, 1⟩]
  else match kind with
    | .corrected _ => log
    | .uncorrectable =>
      match dropOldestCorrected log with
      | none => log
      | some rest => rest ++ [⟨bank, a, kind, frame, 1⟩]

/-- The scrub queue after a request (R76): not added when one for the same word waits or the queue is full. -/
def requestScrub (q : List ScrubRequest) (r : ScrubRequest) : List ScrubRequest :=
  if q.any (fun x => x.bank == r.bank && x.addr == r.addr) || Config.scrubQueueSize ≤ q.length then q else q ++ [r]

/-- The store after a checked read of a word, with the frame number of that moment (R74 to R76). -/
def Store.noteRead (st : Store) (bank : Bank) (a : Nat) (frame : BitVec 32) : Store :=
  let w := st.wordAt bank a
  match w.finding with
  | .clean => st
  | .corrected i =>
    { st with log := logFinding st.log bank a (.corrected i.val) frame
              scrub := requestScrub st.scrub ⟨bank, a, w, w.used (.corrected i)⟩ }
  | .uncorrectable => { st with log := logFinding st.log bank a .uncorrectable frame }

/-- The finding of a checked read of a word as it stands (R74). -/
def Store.findingAt (st : Store) (bank : Bank) (a : Nat) : Finding := (st.wordAt bank a).finding

/-- The word a checked read of it gives (R74, R75). -/
def Store.readAt (st : Store) (bank : Bank) (a : Nat) : Word := (st.wordAt bank a).used (st.findingAt bank a)

/-- The part after a checked read of a word (R74). -/
def noteRead (bank : Bank) (a : Nat) (s : State) : State :=
  { s with store := s.store.noteRead bank a s.timing.frameNumber }

/-! ### The store port (R72, R73) -/

/-- A row fetch claims the port (R84). -/
def fetchClaims (s : State) : Bool := s.buf.fetch.isSome

/-- A scrub write-back claims the port (R76). -/
def scrubClaims (s : State) : Bool := !s.store.scrub.isEmpty

/-- The commit reader may read its next word: the commit is in phase WORDS and has not stopped (R135, R137). -/
def commitReads (s : State) : Bool :=
  match s.life.commit with
  | some c => c.phase == .words && c.stop.isNone && decide (c.taken < c.n)
  | none => false

/-- The commit reader keeps the port from the claimants below it. While a flash operation is in progress the reader
may be waiting for it, so that the ranks below may be granted (DESIGN CHOICE, log 5; safe). -/
def commitHoldsPort (s : State) : Bool :=
  commitReads s && (match s.life.commit with
    | some c => c.ops.isEmpty
    | none => false)

/-- The command engine is granted the port: no claimant of higher rank waits (R73). -/
def engineGranted (s : State) : Bool := !fetchClaims s && !scrubClaims s && !commitHoldsPort s

/-! ### Events of the store -/

/-- STORAGE_FAULT (R63): the stored bit now differs from its last written form. -/
def execStorageFault (bank : Bank) (address bit : Nat) (s : State) : Answer :=
  if !bankBitOk address bit then .fault .noSuchBankBit
  else event (fun s =>
    let w := s.store.wordAt bank address
    let struck : StoredWord := ⟨w.data, w.flips ||| (1#39 <<< bit)⟩
    { s with store := s.store.setWords bank ((s.store.words bank).write .zero address struck) }) s

/-- SCRUB_WRITE_BACK (R77): the oldest request is granted when no row fetch claims the port (R73). Equal stored bits
are written corrected, with fresh check bits; else the write-back is dropped. -/
def execScrubWriteBack (s : State) : Answer :=
  event (fun s =>
    match s.store.scrub with
    | [] => s
    | r :: rest =>
      if fetchClaims s then s
      else if (s.store.wordAt r.bank r.addr).sameStored r.seen then
        { s with store := { s.store.writeWord r.bank r.addr r.fixed with scrub := rest } }
      else { s with store.scrub := rest }) s

/-! ### Commands of the store -/

/-- ACTIVATE (R68): LENGTH, GEOMETRY, then BUSY when one is pending; accepted, it sets activate pending, and the reply
is deferred. -/
def execActivate (tag : Byte) (payload : List Word) (s : State) : Answer :=
  let p : Packet := ⟨tag, 0x28, payload⟩
  take p (fun s =>
    tested p .change
      [lengthIs p 1, ((s.store.geometry s.store.load).isNone, .geometry), (s.store.activatePending, .busy)]
      (fun s => { s with store.activatePending := true, eng.holdActivate := some tag }) s) s

/-- LOG READ (R80): the number of entries and three words for each, oldest first. -/
def execLogRead (tag : Byte) (payload : List Word) (s : State) : Answer :=
  let p : Packet := ⟨tag, 0x29, payload⟩
  take p (tested p .plain [lengthIs p 1] fun s =>
    done p (put s.store.log.length 4 0 :: s.store.log.flatMap logEntryWords) s) s

/-- LOG CLEAR (R81): every entry is removed; the reply gives the number removed. -/
def execLogClear (tag : Byte) (payload : List Word) (s : State) : Answer :=
  let p : Packet := ⟨tag, 0x2A, payload⟩
  take p (tested p .plain [lengthIs p 1] fun s =>
    done p [put s.store.log.length 4 0] { s with store.log := [] }) s

end Sys2Proof.Machine
end

