-- ==== Sys2Proof/Machine/Buffer.lean ====
section
/-! DEFINITION. The node row buffer: slots, fetch list, fetches and write-through (R82 to R86). -/

namespace Sys2Proof.Machine

/-- A slot has this tag (Table 29). -/
def Slot.tagged (sl : Slot) (bank : Bank) (row : Nat) : Bool := sl.bank == bank && sl.row == row

/-- The slot with a tag. -/
def RowBuffer.slotWith (b : RowBuffer) (bank : Bank) (row : Nat) : Option Slot :=
  match b.slots.find? (fun o => o.any fun sl => sl.tagged bank row) with
  | some (some sl) => some sl
  | _ => none

/-- The place (0..2) a row's fetch takes: an empty slot for rows 0 to 2 of a frame start, and for the prefetch of
band j = row − 2 the slot that holds row j − 1 (R82 to R84). -/
def RowBuffer.place (b : RowBuffer) (bank : Bank) (row : Nat) : Option Nat :=
  if row < 3 then b.slots.findIdx? (fun o => o.isNone)
  else b.slots.findIdx? (fun o => o.any fun sl => sl.tagged bank (row - 3))

/-- The next fetch of the list begins when none is in progress and its slot is there: the slot is tagged at once, and
no word of it is delivered yet (R84). -/
def beginFetch (s : State) : State :=
  match s.buf.fetch, s.buf.fetchList with
  | none, row :: rest =>
    match s.buf.place s.pipe.live.bank row with
    | none => s
    | some i =>
      { s with buf := { s.buf with
          slots := s.buf.slots.set i (some ⟨s.pipe.live.bank, row, 0, []⟩)
          fetchList := rest
          fetch := some i } }
  | _, _ => s

/-- One word of the fetch in progress is read, checked and delivered; the last one completes the fetch and the next
of the list begins (R84). -/
def fetchRead (s : State) : State :=
  match s.buf.fetch, s.pipe.live.geometry with
  | some i, some g =>
    match s.buf.slots.getD i none with
    | none => s
    | some sl =>
      let a := sl.row * g.rowWords + sl.delivered
      let v : SlotWord := ⟨s.store.readAt sl.bank a, s.store.findingAt sl.bank a == .uncorrectable⟩
      let t := noteRead sl.bank a s
      beginFetch { t with buf := { t.buf with
        slots := t.buf.slots.set i (some { sl with delivered := sl.delivered + 1
                                                   words := sl.words.write .none sl.delivered v })
        fetch := if sl.delivered + 1 < g.rowWords then some i else none } }
  | _, _ => s

/-- FETCH_WORD_READ (R72, R84). -/
def execFetchWordRead (s : State) : Answer := event fetchRead s

/-- A command write reaches the resident slot with its bank and node row: the copy is replaced and its poisoned mark
cleared (R85). The node row is found with the geometry of the live bank. -/
def writeThrough (bank : Bank) (a : Nat) (w : Word) (s : State) : State :=
  match s.pipe.live.geometry with
  | none => s
  | some g =>
    match g.rowOf a with
    | none => s
    | some row =>
      { s with buf.slots := s.buf.slots.map fun o => o.map fun sl =>
          if sl.tagged bank row then { sl with words := sl.words.write .none (a % g.rowWords) ⟨w, false⟩ } else sl }

/-- A command write of one word: the bank, with fresh check bits, and the matching slot (R85, R95). -/
def commandWrite (bank : Bank) (a : Nat) (w : Word) (s : State) : State :=
  writeThrough bank a (stripSpare w) { s with store := s.store.writeWord bank a w }

/-- The buffer at a frame start: slots and list emptied, and in a FULL frame rows 0, 1 and 2 listed and the first
fetch begun (R82, R84). -/
def startBuffer (s : State) : State :=
  let rows := if s.pipe.live.mode = .full then [0, 1, 2] else []
  beginFetch { s with buf := { RowBuffer.start with fetchList := rows } }

/-- Band y / P begins as the first pixel of pixel row jP, 1 ≤ j ≤ R_n − 1, enters the pipeline: node row j + 2 is
listed, if there is one (R83). -/
def beginBand (x y : Nat) (s : State) : State :=
  match s.pipe.live.mode, s.pipe.live.geometry with
  | .full, some g =>
    let j := y / g.p
    if x = 0 ∧ y % g.p = 0 ∧ 1 ≤ j ∧ j ≤ g.rows - 1 ∧ s.buf.bandBegun < j then
      let list := if j + 2 ≤ g.rows - 1 then s.buf.fetchList ++ [j + 2] else s.buf.fetchList
      beginFetch { s with buf := { s.buf with bandBegun := j, fetchList := list } }
    else s
  | _, _ => s

/-- A word of a resident slot, once it is delivered (R22, R84). -/
def RowBuffer.wordAt (b : RowBuffer) (bank : Bank) (g : Geometry) (j i k : Nat) : Option SlotWord :=
  match b.slotWith bank j with
  | none => none
  | some sl => if i * g.k + k < sl.delivered then some (sl.words.read .none (i * g.k + k)) else none

end Sys2Proof.Machine
end

