-- ==== Sys2Proof/Machine/Node.lean ====
section
/-! DEFINITION. Anchors, node commands, geometry commands, and the engine's word accesses (Chapter 5). -/

namespace Sys2Proof.Machine

/-! ### Anchors (R88, R89) -/

/-- ANCHOR SET (R88): FORMAT for the mode, INDEX for anchor 0, LENGTH; the value is taken modulo 2^20. -/
def execAnchorSet (tag : Byte) (payload : List Word) (s : State) : Answer :=
  let p : Packet := ⟨tag, 0x18, payload⟩
  let i := bits (word payload 0) 10 8
  take p (fun s =>
    match gateRefusal .anchor s, anchorModeOf (bits (word payload 0) 1 0) with
    | some r, _ => refuse p r [] s
    | none, none => refuse p .format [] s
    | none, some mode =>
      if i = 0 then refuse p .index [] s
      else if payload.length ≠ 2 then refuse p .length [] s
      else
        let a : Anchor := ⟨(word payload 1).setWidth 20, mode⟩
        done p [anchorWord i a] { s with eng := s.eng.setAnchor i a }) s

/-- ANCHOR READ (R89): the seven anchors, anchor 1 first. -/
def execAnchorRead (tag : Byte) (payload : List Word) (s : State) : Answer :=
  let p : Packet := ⟨tag, 0x19, payload⟩
  take p (tested p .plain [lengthIs p 1] fun s =>
    done p ([1, 2, 3, 4, 5, 6, 7].map fun i => anchorWord i (s.eng.anchor i)) s) s

/-! ### Runs (R91, R92) -/

/-- The run of `n` words from `ea` passes the end of the bank (R91); a run of 0 words is not tested. -/
def runTooLong (ea n : Nat) : Bool := 1 ≤ n && Config.bankWords ≤ ea + n - 1

/-- The modes in which a command advances its base anchor (R87). -/
def AnchorMode.advances (m : AnchorMode) (write : Bool) : Bool :=
  match m with
  | .none => false
  | .onWrite => write
  | .onReadAndWrite => true

/-- The base anchor advanced by the length of a run that has succeeded (R92). -/
def advanceAnchor (run : Run) (write : Bool) (s : State) : State :=
  let a := s.eng.anchor run.base
  if a.mode.advances write then
    { s with eng := s.eng.setAnchor run.base { a with value := a.value + BitVec.ofNat 20 run.n } }
  else s

/-! ### NODE WRITE, NODE FILL, NODE READ (R94 to R99) -/

/-- The tests that NODE WRITE and NODE FILL share after FORMAT and LENGTH: ADDRESS, then BUSY for a frozen LOAD bank;
when they pass, what the command does with its physical bank and effective address (R69, R91, R93). -/
def testedRun (p : Packet) (role : Role) (n : Nat) (run : Bank → Nat → State → State) (s : State) : State :=
  let ea := (effectiveAddress s.eng (word p.payload 0)).toNat
  if runTooLong ea n then refuseWrite p .address (some ea) s
  else if role = .load ∧ s.store.activatePending then refuseWrite p .busy (some ea) s
  else run (s.store.bankOf role) ea s

/-- NODE WRITE (R94): tested, entering hold on a refusal other than HELD; accepted, its words are written from EA on,
or, with none, it completes at once. -/
def execNodeWrite (tag : Byte) (payload : List Word) (s : State) : Answer :=
  let p : Packet := ⟨tag, 0x20, payload⟩
  let w := word payload 0
  take p (fun s =>
    match gateRefusal .change s, roleOf w with
    | some r, _ => refuseWrite p r none s
    | none, none => refuseWrite p .format none s
    | none, some role =>
      testedRun p role (payload.length - 1) (fun bank ea s =>
        if payload.length = 1 then done p [addressWord ea] s
        else { s with eng.inHand := some (.write ⟨tag, bank, baseOf w, payload.length - 1, ea⟩ payload.tail) }) s) s

/-- The largest effective length of NODE FILL (R98). -/
def maxFill : Nat := 4096

/-- NODE FILL (R98): FORMAT, LENGTH, ADDRESS, BUSY; the effective length is min(true length, 4,096). -/
def execNodeFill (tag : Byte) (payload : List Word) (s : State) : Answer :=
  let p : Packet := ⟨tag, 0x22, payload⟩
  let w := word payload 0
  let len := bits (word payload 2) 19 0
  let e := min len maxFill
  take p (fun s =>
    match gateRefusal .change s, roleOf w with
    | some r, _ => refuseWrite p r none s
    | none, none => refuseWrite p .format none s
    | none, some role =>
      if payload.length ≠ 3 then refuseWrite p .length none s
      else
        testedRun p role e (fun bank ea s =>
          if e = 0 then done p [residualWord 0, addressWord ea] s
          else { s with eng.inHand := some (.fill ⟨tag, bank, baseOf w, e, ea⟩ (word payload 1) e (len - e)) }) s) s

/-- NODE READ (R96): FORMAT, LENGTH for the payload, LENGTH for the count, ADDRESS. -/
def execNodeRead (tag : Byte) (payload : List Word) (s : State) : Answer :=
  let p : Packet := ⟨tag, 0x21, payload⟩
  let w := word payload 0
  let n := bits (word payload 1) 15 0
  take p (fun s =>
    let ea := (effectiveAddress s.eng w).toNat
    match gateRefusal .plain s, roleOf w with
    | some r, _ => refuse p r [] s
    | none, none => refuse p .format [] s
    | none, some role =>
      if payload.length ≠ 2 then refuse p .length [] s
      else if n = 0 ∨ 128 < n then refuse p .length [] s
      else if runTooLong ea n then refuse p .address [] s
      else
        let run : Run := ⟨tag, s.store.bankOf role, baseOf w, n, ea⟩
        { s with eng.inHand := some (.read run n s.eng.hold.isSome []) }) s

/-! ### The engine's accesses (R95, R97, R99) -/

/-- A node command completes: nothing is in hand, and its reply is posted (R147, R152). -/
def completeRun (run : Run) (code : Byte) (payload : List Word) (s : State) : State :=
  post .engine run.tag code .done payload { s with eng.inHand := none }

/-- ENGINE_WORD_WRITE (R73, R95, R99): the next word of a NODE WRITE or NODE FILL is granted the port and written; after
the last one the anchor advances and the command completes. -/
def execEngineWordWrite (s : State) : Answer :=
  event (fun s =>
    match engineGranted s, s.eng.inHand with
    | true, some (.write run (w :: rest)) =>
      let t := commandWrite run.bank run.next w s
      if rest.isEmpty then
        completeRun run 0x20 [addressWord (run.next + 1)] (advanceAnchor run true t)
      else { t with eng.inHand := some (.write { run with next := run.next + 1 } rest) }
    | true, some (.fill run w (left + 1) residual) =>
      let t := commandWrite run.bank run.next w s
      if left = 0 then
        completeRun run 0x22 [residualWord residual, addressWord (run.next + 1)] (advanceAnchor run true t)
      else { t with eng.inHand := some (.fill { run with next := run.next + 1 } w left residual) }
    | _, _ => s) s

/-- ENGINE_WORD_READ (R73, R97): the next word of a NODE READ is granted the port, read and checked; after the last one
the anchor advances, unless the engine was held when the command was taken, and the command completes. -/
def execEngineWordRead (s : State) : Answer :=
  event (fun s =>
    match engineGranted s, s.eng.inHand with
    | true, some (.read run (left + 1) held got) =>
      let v := readWord (s.store.readAt run.bank run.next) (s.store.findingAt run.bank run.next == .uncorrectable)
      let t := noteRead run.bank run.next s
      if left = 0 then
        completeRun run 0x21 (got ++ [v]) (if held then t else advanceAnchor run false t)
      else { t with eng.inHand := some (.read { run with next := run.next + 1 } left held (got ++ [v])) }
    | _, _ => s) s

/-! ### Geometry commands (R100 to R102) -/

/-- GEOMETRY SET (R100, R101): LENGTH, the fields and the capacity (GEOMETRY), the levels (LEVELS), then BUSY while an
ACTIVATE is pending; accepted, the LOAD bank's record is replaced. -/
def execGeometrySet (tag : Byte) (payload : List Word) (s : State) : Answer :=
  let p : Packet := ⟨tag, 0x24, payload⟩
  let g := geometryOf payload
  take p (fun s =>
    tested p .change
      [lengthIs p 5, (!g.fieldsOk, .geometry), (!g.capacityOk, .geometry), (!g.levelsOk, .levels),
       (s.store.activatePending, .busy)]
      (fun s =>
        done p (geometryPayload s.store.load (some g))
          { s with store := s.store.setGeometry s.store.load (some g) }) s) s

/-- GEOMETRY READ (R102): LENGTH, then FORMAT for the role. -/
def execGeometryRead (tag : Byte) (payload : List Word) (s : State) : Answer :=
  let p : Packet := ⟨tag, 0x25, payload⟩
  take p (tested p .plain [lengthIs p 1] fun s =>
    match roleOf (word payload 0) with
    | none => refuse p .format [] s
    | some role => done p (geometryPayload (s.store.bankOf role) (s.store.geometry (s.store.bankOf role))) s) s

end Sys2Proof.Machine
end

