-- ==== Sys2Proof/Machine/Arith.lean ====
section
/-! DEFINITION. The correction arithmetic of one pixel-channel, stage by stage, on exact integers (Chapter 2). -/

namespace Sys2Proof.Machine

/-! ### Stage 1: extension (R1, R2) -/

/-- The component value: the top Din bits of the 12-bit field (R1). -/
def inputValue (d : Depth) (field : BitVec 12) : Nat := field.toNat / 2 ^ (12 - d.width)

/-- The working value w (R2). -/
def extend (d : Depth) (v : Nat) : Nat := v * 2 ^ (14 - d.width) + v / 2 ^ (2 * d.width - 14)

/-! ### Node selection and spatial weights (R27) -/

/-- One direction of R27: the two limited node indices and the offset, for a coordinate, the pitch and the last
index. -/
structure Axis where
  lo : Nat
  hi : Nat
  f : Nat
  deriving DecidableEq, Repr

def axisOf (v p last : Nat) : Axis :=
  { lo := min (v / p) last, hi := min (min (v / p) last + 1) last, f := v % p }

/-- The four positions (i, j), (i+1, j), (i, j+1), (i+1, j+1), each with its node row, node column and weight. -/
def positions (g : Geometry) (x y : Nat) : List (Nat × Nat × Nat) :=
  let ax := axisOf x g.p (g.cols - 1)
  let ay := axisOf y g.p (g.rows - 1)
  [(ay.lo, ax.lo, (g.p - ax.f) * (g.p - ay.f)), (ay.lo, ax.hi, ax.f * (g.p - ay.f)),
   (ay.hi, ax.lo, (g.p - ax.f) * ay.f), (ay.hi, ax.hi, ax.f * ay.f)]

/-! ### Plane case (R32 to R34) -/

/-- The plane case of a working value (R32). -/
inductive PlaneCase where
  | fade (l0 : Nat)
  | blend (k u span : Nat)
  | hold (k : Nat)
  deriving DecidableEq, Repr

/-- The case of a `w` that has reached the first level of the list, whose plane is `k`. -/
def caseFrom (w : Nat) : Nat → List Nat → PlaneCase
  | k, a :: b :: rest => if w < b then .blend k (w - a) (b - a) else caseFrom w (k + 1) (b :: rest)
  | k, _ => .hold k

/-- The plane case (R32). -/
def planeCase (levels : List Nat) (w : Nat) : PlaneCase :=
  match levels with
  | [] => .hold 0
  | l0 :: rest => if w < l0 then .fade l0 else caseFrom w 0 (l0 :: rest)

/-- The planes a case uses, each with its plane factor (R32, R34). -/
def PlaneCase.planes (w : Nat) : PlaneCase → List (Nat × Nat)
  | .fade _ => [(0, w)]
  | .blend k u span => [(k, span - u), (k + 1, u)]
  | .hold k => [(k, 1)]

/-- What D has besides P² (R33). -/
def PlaneCase.divisor : PlaneCase → Nat
  | .fade l0 => l0
  | .blend _ _ span => span
  | .hold _ => 1

/-! ### Stages 2 to 4 (R29, R31, R33, R35) -/

/-- How a computation reads the node row buffer: node row, node column, plane (R29). -/
abbrev Look := Nat → Nat → Nat → SlotWord

/-- The delta a word contributes: 0 when it is poisoned (R29). -/
def SlotWord.delta (v : SlotWord) (ch : Channel) : Int := if v.poisoned then 0 else deltaOf v.word ch

/-- A_k (R31). -/
def planeSum (g : Geometry) (look : Look) (ch : Channel) (x y k : Nat) : Int :=
  ((positions g x y).map fun (j, i, weight) => (look j i k).delta ch * (weight : Int)).sum

/-- N (R33). -/
def blendNumerator (g : Geometry) (look : Look) (ch : Channel) (x y w : Nat) : Int :=
  (((planeCase g.levels w).planes w).map fun (k, factor) => planeSum g look ch x y k * (factor : Int)).sum

/-- D (R33). -/
def blendDivisor (g : Geometry) (w : Nat) : Nat := g.p ^ 2 * (planeCase g.levels w).divisor

/-- The integer nearest to num / den, halves away from zero (R35). -/
def roundAway (num : Int) (den : Nat) : Int :=
  if 0 ≤ num then (2 * num + den) / (2 * den) else -((-2 * num + den) / (2 * den))

/-- Stage 4: δ (R35). -/
def correction (g : Geometry) (look : Look) (ch : Channel) (x y w : Nat) : Int :=
  roundAway (blendNumerator g look ch x y w * 2 ^ g.s) (blendDivisor g w)

/-- A poisoned word enters with nonzero weight (R34). -/
def eccRaised (g : Geometry) (look : Look) (x y w : Nat) : Bool :=
  ((planeCase g.levels w).planes w).any fun (k, factor) =>
    (positions g x y).any fun (j, i, weight) => (look j i k).poisoned && decide (weight * factor ≠ 0)

/-! ### Stages 5 to 7 (R37 to R39) -/

/-- Stage 5: the clipped value (R37). -/
def clip (v : Int) : Nat := if v < 0 then 0 else if 16383 < v then 16383 else v.toNat

/-- The condition of Stage 5 (R37). -/
def clipCondition (v : Int) : List Condition := if v < 0 then [.clipLow] else if 16383 < v then [.clipHigh] else []

/-- The gain of a channel. -/
def Gains.of (gs : Gains) : Channel → Nat
  | .r => gs.r
  | .g => gs.g
  | .b => gs.b

/-- Stage 6 (R38). -/
def applyGain (v gain : Nat) : Nat := (v * gain + 2048) / 4096

/-- The condition of Stage 7 (R39). -/
def limitCondition (v2 ceiling : Nat) : List Condition := if ceiling < v2 then [.limit] else []

/-! ### Stage 8: squeeze (R40 to R42) -/

/-- Table 17, by row y mod 4 and column x mod 4. -/
def orderedMatrix : List Nat := [0, 8, 2, 10, 12, 4, 14, 6, 3, 11, 1, 9, 15, 7, 13, 5]

/-- The matrix value at a position (R41). -/
def orderedValue (x y : Nat) : Nat := orderedMatrix.getD (4 * (y % 4) + x % 4) 0

/-- What a rounding adds before the low bits are dropped (R40, R41). -/
def squeezeBias (rnd : Rounding) (shift x y : Nat) : Nat :=
  match rnd with
  | .nearest => 2 ^ (shift - 1)
  | .truncate => 0
  | .ordered => orderedValue x y * 2 ^ shift / 16

/-- Stage 8 (R40, R41) with its saturation (R42). -/
def squeeze (rnd : Rounding) (d : Depth) (x y v : Nat) : Nat :=
  min ((v + squeezeBias rnd (14 - d.width) x y) / 2 ^ (14 - d.width)) (2 ^ d.width - 1)

/-! ### The chain (R25, R26, R44) -/

/-- What the chain computes for a pixel-channel: w, δ and v before clip where they exist, the conditions raised in
pipeline order (R44), and the value handed to Stage 8 when nothing traps (Table 14). -/
structure ChainResult where
  w : Nat
  delta : Option Int
  before : Option Int
  conditions : List Condition
  value : Nat
  deriving DecidableEq, Repr

/-- Stages 6 and 7 on a v, after the conditions already raised. -/
def finishChain (c : LiveContext) (ch : Channel) (w : Nat) (delta before : Option Int) (raised : List Condition)
    (v : Nat) : ChainResult :=
  let v2 := applyGain v (c.gains.of ch)
  { w := w, delta := delta, before := before, conditions := raised ++ limitCondition v2 c.ceiling,
    value := min v2 c.ceiling }

/-- The chain of a pixel-channel of a picture row, by frame mode (Table 14). -/
def chain (c : LiveContext) (look : Look) (ch : Channel) (x y w : Nat) : ChainResult :=
  match c.mode, c.geometry with
  | .full, some g =>
    let d := correction g look ch x y w
    let v := (w : Int) + d
    finishChain c ch w (some d) (some v)
      ((if eccRaised g look x y w then [.nodeEcc] else []) ++ clipCondition v) (clip v)
  | .mismatch, _ => finishChain c ch w none none [] w
  | _, _ => { w := w, delta := none, before := none, conditions := [], value := w }

/-- A condition raised has the mask TRAP (R47). -/
def ChainResult.trapped (r : ChainResult) (masks : Marks) : Bool := r.conditions.any masks.get

/-- The output component `out`: the squeeze of the stages' value, or of min(w, C_ceil) when trapped (R47). -/
def outputOf (c : LiveContext) (x y : Nat) (r : ChainResult) : Nat :=
  squeeze c.rounding c.dout x y (if r.trapped c.masks then min r.w c.ceiling else r.value)

/-- The output field: `out` in the top Dout bits, the low bits 0 (R1). -/
def outputField (d : Depth) (out : Nat) : BitVec 12 := BitVec.ofNat 12 (out * 2 ^ (12 - d.width))

end Sys2Proof.Machine
end

