-- ==== Sys2Proof/Machine/Monitor.lean ====
section
/-! DEFINITION. The frame monitor: conditions, trapping, capture, the window, the signature, the reports, and the
commands of Chapter 3. -/

namespace Sys2Proof.Machine

/-! ### Conditions, trapping and capture (R45 to R51) -/

/-- A raised condition sets its sticky flag and adds one to its frame count (R46). -/
def Monitor.raise (m : Monitor) (c : Condition) : Monitor :=
  { m with sticky := m.sticky.raise c, counts := m.counts.add c }

/-- A trapped pixel-channel: the trapped count, and the capture record when it is empty, with the first condition
raised (R47, R51). -/
def Monitor.trap (m : Monitor) (frame : BitVec 32) (x y : Nat) (ch : Channel) (r : ChainResult) : Monitor :=
  { m with
    trapped := countUp Config.countTop m.trapped
    capture := match m.capture, r.conditions with
      | some c, _ => some c
      | none, [] => none
      | none, first :: _ => some ⟨frame, x, y, ch, first, r.w, r.delta, r.before⟩ }

/-- The events of one pixel-channel, in order: its conditions, then whether it is trapped (R45). -/
def Monitor.channel (m : Monitor) (frame : BitVec 32) (masks : Marks) (x y : Nat) (ch : Channel) (r : ChainResult) :
    Monitor :=
  let raised := r.conditions.foldl Monitor.raise m
  if r.trapped masks then raised.trap frame x y ch r else raised

/-! ### Window and signature (R54 to R58) -/

/-- The applied window of a setting: x1 and y1 limited to a size, if there is one; empty when a corner then lies
beyond the other, as it does for a size of 0 (R56; log 32). -/
def applyWindow (r : Rect) (limit : Option Size) : Window :=
  match limit with
  | none => if r.x0 > r.x1 || r.y0 > r.y1 then .empty else .rect r
  | some z =>
    if z.width = 0 || z.height = 0 then .empty
    else
      let x1 := min r.x1 (z.width - 1)
      let y1 := min r.y1 (z.height - 1)
      if r.x0 > x1 || r.y0 > y1 then .empty else .rect ⟨r.x0, r.y0, x1, y1⟩

/-- A position lies inside an applied window (R54, R57). -/
def Window.holds (v : Window) (x y : Nat) : Bool :=
  match v with
  | .empty => false
  | .rect r => r.x0 ≤ x && x ≤ r.x1 && r.y0 ≤ y && y ≤ r.y1

/-- The six bytes of a signed pixel: each component as 16 bits, high byte first (R58). -/
def signedBytes (r g b : Nat) : List Byte :=
  halfBytes (BitVec.ofNat 16 r) ++ halfBytes (BitVec.ofNat 16 g) ++ halfBytes (BitVec.ofNat 16 b)

/-- A sent pixel is signed when it lies inside the applied window (R57, R58). -/
def Monitor.sign (m : Monitor) (window : Window) (x y r g b : Nat) : Monitor :=
  match m.acc with
  | none => m
  | some a =>
    if window.holds x y then
      { m with acc := some ⟨crc32From a.crc (signedBytes r g b), countUp Config.pixelCountTop a.pixels⟩ }
    else m

/-- The monitor at an output frame start: counts and signature begun afresh (R48, R57, R58). -/
def Monitor.frameStart (m : Monitor) : Monitor :=
  { m with counts := ⟨0, 0, 0, 0⟩, trapped := 0, acc := some ⟨0xFFFFFFFF, 0⟩ }

/-! ### Frame reports (R59, R60) -/

/-- The ring with a report appended as the newest, the oldest removed when it held four (R59). -/
def pushReport (ring : List Report) (r : Report) : List Report :=
  (if Config.ringSize ≤ ring.length then ring.tail else ring) ++ [r]

/-- The report of the frame that ends, from the items output timing hands the monitor (R5, R6, R7, Table 22). -/
def frameReport (measured : Option Size) (serviceRows : Nat) (s : State) : Report where
  frame := s.timing.frameNumber
  bank := if s.pipe.live.mode = .full then some s.pipe.live.bank else none
  mode := s.pipe.live.mode
  measured := measured
  serviceRows := serviceRows
  window := s.pipe.live.window
  pixels := s.mon.acc.elim 0 Accumulator.pixels
  signature := s.mon.acc.elim 0xFFFFFFFF Accumulator.crc
  counts := s.mon.counts
  trapped := s.mon.trapped

/-- The output frame end: the report is filed with the counts as they stand, which are then not kept (R48; log 42),
and no frame is in progress (R5, R59). -/
def outputFrameEnd (measured : Option Size) (serviceRows : Nat) (s : State) : State :=
  { s with mon := { s.mon with ring := pushReport s.mon.ring (frameReport measured serviceRows s)
                               counts := ⟨0, 0, 0, 0⟩
                               trapped := 0 }
           timing.frame := .none
           timing.owedEnd := none }

/-! ### Commands of the monitor -/

/-- WINDOW SET (R55). -/
def execWindowSet (tag : Byte) (payload : List Word) (s : State) : Answer :=
  let p : Packet := ⟨tag, 0x50, payload⟩
  take p (tested p .plain [lengthIs p 2] fun s =>
    done p (rectWords (rectOf (word payload 0) (word payload 1)))
      { s with mon.window := rectOf (word payload 0) (word payload 1) }) s

/-- REPORT READ (R61). -/
def execReportRead (tag : Byte) (payload : List Word) (s : State) : Answer :=
  let p : Packet := ⟨tag, 0x51, payload⟩
  take p (tested p .plain [lengthIs p 1] fun s =>
    done p (put s.mon.ring.length 2 0 :: s.mon.ring.flatMap reportWords) s) s

/-- CONDITIONS READ (R50): the flags are returned and cleared as one action; the summary is built after the clear. -/
def execConditionsRead (tag : Byte) (payload : List Word) (s : State) : Answer :=
  let p : Packet := ⟨tag, 0x52, payload⟩
  take p (tested p .plain [lengthIs p 1] fun s =>
    done p [marksWord s.mon.sticky] { s with mon.sticky := .clear }) s

/-- CAPTURE READ (R52). -/
def execCaptureRead (tag : Byte) (payload : List Word) (s : State) : Answer :=
  let p : Packet := ⟨tag, 0x53, payload⟩
  take p (tested p .plain [lengthIs p 1] fun s => done p (capturePayload s.mon.capture) s) s

/-- CAPTURE CLEAR (R53). -/
def execCaptureClear (tag : Byte) (payload : List Word) (s : State) : Answer :=
  let p : Packet := ⟨tag, 0x54, payload⟩
  take p (tested p .plain [lengthIs p 1] fun s =>
    done p [putBit s.mon.capture.isSome 0] { s with mon.capture := none }) s

end Sys2Proof.Machine
end

