-- ==== Sys2Proof/Machine/Pixel.lean ====
section
/-! DEFINITION. The pixel path: what a pixel waits for, its processing and sending, and the frame end behind the last
pixel (R1, R18, R22, R25, R57). -/

namespace Sys2Proof.Machine

/-- It is decided whether row y is a service row: the decoder is not matching its marker (R158). -/
def rowDecided (s : State) (y : Nat) : Bool :=
  match s.rx.frame with
  | some f => !(f.dec.state == .matching && f.row == y)
  | none => true

/-- Row y is a service row of the frame (R18, R158). -/
def isServiceRow (s : State) (y : Nat) : Bool := y < s.rx.serviceRows

/-- The working values of a pixel's three components (R2). -/
def workingValues (d : Depth) (p : InPixel) : List Nat :=
  [extend d (inputValue d p.r), extend d (inputValue d p.g), extend d (inputValue d p.b)]

/-- The words a pixel reads, as node row, node column and plane: the four positions at each plane that a channel's case
uses (R29, R32). -/
def wordsRead (g : Geometry) (d : Depth) (p : InPixel) : List (Nat × Nat × Nat) :=
  (workingValues d p).flatMap fun w =>
    ((planeCase g.levels w).planes w).flatMap fun (k, _) => (positions g p.x p.y).map fun (j, i, _) => (j, i, k)

/-- A pixel can be processed: its row is decided, and in a FULL frame every word it reads is delivered (R22, R158). A
service row needs no word (R18). -/
def pixelReady (p : InPixel) (s : State) : Bool :=
  rowDecided s p.y &&
    (isServiceRow s p.y ||
      (match s.pipe.live.mode, s.pipe.live.geometry with
       | .full, some g =>
         (wordsRead g s.pipe.live.din p).all fun (j, i, k) => (s.buf.wordAt s.pipe.live.bank g j i k).isSome
       | _, _ => true))

/-- The words as the row slots hold them at this moment (R30). -/
def slotLook (s : State) : Look := fun j i k =>
  match s.pipe.live.geometry with
  | none => .none
  | some g => (s.buf.wordAt s.pipe.live.bank g j i k).getD .none

/-- The chain of one component of a pixel (R25). -/
def pixelChain (s : State) (p : InPixel) (ch : Channel) (field : BitVec 12) : ChainResult :=
  chain s.pipe.live (slotLook s) ch p.x p.y (extend s.pipe.live.din (inputValue s.pipe.live.din field))

/-- Three output components are sent to the panel at a position and signed (R1, R57). -/
def sendPixel (x y r g b : Nat) (s : State) : State :=
  let d := s.pipe.live.dout
  { s with pipe.panel := some ⟨x, y, outputField d r, outputField d g, outputField d b⟩
           mon := s.mon.sign s.pipe.live.window x y r g b }

/-- A pixel of a picture row: its three channels in the order R, G, B, their events, and its output (R25, R45). -/
def processPicture (p : InPixel) (s : State) : State :=
  let c := s.pipe.live
  let r := pixelChain s p .r p.r
  let g := pixelChain s p .g p.g
  let b := pixelChain s p .b p.b
  let n := s.timing.frameNumber
  let m := ((s.mon.channel n c.masks p.x p.y .r r).channel n c.masks p.x p.y .g g).channel n c.masks p.x p.y .b b
  sendPixel p.x p.y (outputOf c p.x p.y r) (outputOf c p.x p.y g) (outputOf c p.x p.y b) { s with mon := m }

/-- A pixel is processed and sent: black in a service row (R18), else by its chain. -/
def processPixel (p : InPixel) (s : State) : State :=
  if isServiceRow s p.y then sendPixel p.x p.y 0 0 0 s else processPicture p s

/-- The output frame end of an input frame that has ended follows the last of its pixels (R5, R22). -/
def endWhenSent (s : State) : State :=
  match s.timing.owedEnd, s.pipe.input with
  | some e, [] => outputFrameEnd (some e.measured) e.serviceRows s
  | _, _ => s

/-- PIXEL_PROCESS (R22, R25): the oldest pixel waiting enters the pipeline, its band begins if it is the first of one,
and it is processed and sent if it can be; else it waits. -/
def execPixelProcess (s : State) : Answer :=
  event (fun s =>
    match s.pipe.input with
    | [] => s
    | p :: rest =>
      let t := beginBand p.x p.y s
      if pixelReady p t then endWhenSent (processPixel p { t with pipe.input := rest }) else t) s

/-- The fetches go on until a pixel can be processed; `fuel` exceeds the words that three rows hold (R66: at most
5,766 a row). -/
def fetchFor (p : InPixel) : Nat → State → State
  | 0, s => s
  | fuel + 1, s => if pixelReady p s then s else if s.buf.fetch.isSome then fetchFor p fuel (fetchRead s) else s

/-- The pixels that wait are processed and sent, in order, with the fetches they need. -/
def drainList : List InPixel → State → State
  | [], s => s
  | p :: rest, s =>
    drainList rest (processPixel p { fetchFor p 20000 (beginBand p.x p.y s) with pipe.input := rest })

/-- Every pixel still held back is sent and the frame's output ends, where the next frame must begin in this same step
(R6, R22, R24: "each pixel that arrives is processed and sent"; DESIGN CHOICE, log 7; safe). -/
def drain (s : State) : State := endWhenSent (drainList s.pipe.input s)

/-! ### Commands of the pipeline -/

/-- PIPE SET (R16): FORMAT is tested first, LENGTH second; the five settings are written together. -/
def execPipeSet (tag : Byte) (payload : List Word) (s : State) : Answer :=
  let p : Packet := ⟨tag, 0x40, payload⟩
  let w := word payload 0
  take p (fun s =>
    match gateRefusal .change s, pipeModeOf (bits w 27 24), depthOf (bits w 23 16), depthOf (bits w 15 8),
        roundingOf (bits w 7 4) with
    | some r, _, _, _, _ => refuse p r [] s
    | none, some mode, some din, some dout, some rnd =>
      if payload.length ≠ 1 then refuse p .length [] s
      else
        done p [settingsWord (pipeModeCode mode) din dout rnd (marksOf w)]
          { s with pipe.pending := { s.pipe.pending with
              mode := mode, din := din, dout := dout, rounding := rnd, masks := marksOf w } }
    | none, _, _, _, _ => refuse p .format [] s) s

/-- The fifteen words of PIPE READ (Table 10). -/
def pipePayload (s : State) : List Word :=
  let p := s.pipe.pending
  let l := s.pipe.live
  [settingsWord (pipeModeCode p.mode) p.din p.dout p.rounding p.masks, put p.ceiling 15 0] ++ gainWords p.gains ++
  [pipeBankWord p.bank p.geometry] ++ rectWords s.mon.window ++
  [settingsWord (frameModeCode l.mode) l.din l.dout l.rounding l.masks, put l.ceiling 15 0] ++ gainWords l.gains ++
  [pipeBankWord l.bank l.geometry] ++ windowWords l.window ++ [s.timing.frameNumber]

/-- PIPE READ (R17). -/
def execPipeRead (tag : Byte) (payload : List Word) (s : State) : Answer :=
  let p : Packet := ⟨tag, 0x41, payload⟩
  take p (tested p .plain [lengthIs p 1] fun s => done p (pipePayload s) s) s

end Sys2Proof.Machine
end

