-- ==== Sys2Proof/Machine/Timing.lean ====
section
/-! DEFINITION. Frame starts and frame ends: output timing, ACTIVATE completion, the live context, free-run, and the
framing marks of the panel link (R4 to R12, R70, R156). -/

namespace Sys2Proof.Machine

/-! ### Output frame start (R11, R12, R70, R82, R56) -/

/-- A pending ACTIVATE is completed: the roles are exchanged, the pending context follows the new ACTIVE bank (R15), and
the deferred reply DONE names that bank and the frame that begins (R70). -/
def completeActivate (s : State) : State :=
  if s.store.activatePending then
    let bank := s.store.load
    let t := { s with
      store := { s.store with active := bank, activatePending := false }
      pipe.pending := { s.pipe.pending with bank := bank, geometry := s.store.geometry bank }
      eng.holdActivate := none }
    match s.eng.holdActivate with
    | none => t
    | some tag => postDeferred .store tag 0x28 .done [put (bankCode bank) 1 0, s.timing.frameNumber] t
  else s

/-- The frame mode decision (Table 7): the first entry whose condition holds. -/
def decideMode (free starting : Bool) (mode : PipeMode) (geometry : Option Geometry) (measured : Option Size) :
    FrameMode :=
  if free then .freeRun
  else if starting then .bypass
  else match mode, geometry, measured with
    | .bypass, _, _ => .bypass
    | .full, none, _ => .bypass
    | .full, some _, none => .mismatch
    | .full, some g, some z => if z.width ≠ g.w || z.height ≠ g.h then .mismatch else .full

/-- The raster of a free-run frame: the free-run raster, else the size of the ACTIVE bank's geometry, else 3840 × 2160
(R7). -/
def freeRunRaster (s : State) : Size :=
  match s.timing.raster, s.store.geometry s.store.active with
  | some z, _ => z
  | none, some g => ⟨g.w, g.h⟩
  | none, none => ⟨3840, 2160⟩

/-- The live context of a frame that begins: the pending context, the frame mode and the applied window (R11). -/
def liveFrom (p : PendingContext) (mode : FrameMode) (window : Window) : LiveContext where
  mode := mode
  din := p.din
  dout := p.dout
  rounding := p.rounding
  masks := p.masks
  ceiling := p.ceiling
  gains := p.gains
  bank := p.bank
  geometry := p.geometry
  window := window

/-- An output frame start: the frame number rises, a pending ACTIVATE is completed, the live context takes the pending
context and the clipped window, the mode is decided, the monitor and the row buffer begin afresh (Table 12). -/
def outputFrameStart (free : Bool) (s : State) : State :=
  let t := completeActivate { s with timing.frameNumber := s.timing.frameNumber + 1 }
  let raster := freeRunRaster t
  let mode := decideMode free (t.life.lifecycle == .starting) t.pipe.pending.mode t.pipe.pending.geometry t.rx.measured
  let window := applyWindow t.mon.window (if free then some raster else t.rx.measured)
  startBuffer { t with
    pipe.live := liveFrom t.pipe.pending mode window
    mon := t.mon.frameStart
    timing.frame := if free then .freeRun raster 0 else .input }

/-! ### Ends and cuts of input frames (R5, R6, R156, R162) -/

/-- A service line cut short in HEADER or PACKETS enters hold with CHECK (R162). -/
def cutLine (f : RxFrame) (s : State) : State :=
  match f.dec.state with
  | .header => enterHold .check none (some f.row) none s
  | .packets => enterHold .check none (some f.row) none s
  | _ => s

/-- The measured size of a cut frame: the length of row 0, as far as received, and the rows begun (R6). -/
def cutSize (f : RxFrame) : Size := ⟨f.firstRow.getD f.pixels, nextCount f.row⟩

/-- The size of a frame that ends completely: the first-row length and the number of rows (R156). -/
def fullSize (f : RxFrame) : Size := ⟨f.firstRow.getD 0, nextCount f.row⟩

/-- The input frame in progress, if any, is cut: the measured size becomes absent, and the output ends after the last
pixel received (R6). -/
def cutFrame (s : State) : State :=
  match s.rx.frame with
  | none => s
  | some f =>
    let t := cutLine f s
    endWhenSent { t with
      rx := { t.rx with frame := none, measured := none }
      timing.owedEnd := some ⟨cutSize f, t.rx.serviceRows⟩ }

/-- The input frame in progress ends completely: it sets the measured size and the free-run raster (R5). -/
def endFrame (f : RxFrame) (s : State) : State :=
  endWhenSent { s with
    rx := { s.rx with frame := none, measured := some (fullSize f) }
    timing := { s.timing with raster := some (fullSize f), owedEnd := some ⟨fullSize f, s.rx.serviceRows⟩ } }

/-- INPUT_FRAME_END: complete after a row end, else a cut (R156). -/
def execInputFrameEnd (s : State) : Answer :=
  event (fun s =>
    match s.rx.frame with
    | none => s
    | some f => if f.rowOpen then cutFrame s else endFrame f s) s

/-- LINK_LOSS (R156). -/
def execLinkLoss (s : State) : Answer := event cutFrame s

/-! ### Frame starts on the link (R4, R8, R24, R156) -/

/-- The decoder at rest (Table 50). -/
def idleDecoder : Decoder := ⟨.idle, none, none, []⟩

/-- A frame that begins, with row 0 and the service region open (R156, R158). -/
def newRxFrame : RxFrame :=
  { row := 0, pixels := 0, rowOpen := true, firstRow := none, regionOpen := true, dec := idleDecoder }

/-- A free-run frame in progress is ended by the input frame start: its output frame end is given and timing returns to
RUNNING (R8). -/
def endFreeRun (s : State) : State :=
  if s.timing.free then
    let t := outputFrameEnd none 0 s
    { t with timing.free := false }
  else s

/-- The last period taken, the deadline set and the previous frame start moved at an input frame start (R4, R156). -/
def takePeriod (now : Nat) (s : State) : State :=
  let period := match s.rx.prevStart with
    | none => s.timing.lastPeriod
    | some before => now - before
  { s with timing := { s.timing with lastPeriod := period, deadline := some (now + 2 * period) }
           rx.prevStart := some now }

/-- An input frame that has ended on the link and whose output has not is cut by a frame start: the measured size
becomes absent (R6, R24; log 7). -/
def cutLate (s : State) : State :=
  match s.timing.owedEnd with
  | none => s
  | some _ => { s with rx.measured := none }

/-- INPUT_FRAME_START at an instant: a frame in progress is cut and its pixels sent, a free-run frame ended, the period
taken, and the output frame and the input frame begin (R4, R6, R8, R24). -/
def execInputFrameStart (now : Nat) (s : State) : Answer :=
  event (fun s =>
    let t := outputFrameStart false (takePeriod now (endFreeRun (drain (cutLate (cutFrame s)))))
    { t with rx := { t.rx with frame := some newRxFrame, serviceRows := 0 } }) s

/-! ### Free-run (R7, R9) -/

/-- DEADLINE_EXPIRY (R7): an input frame in progress is cut, timing enters FREE_RUN, the measured size and the previous
frame start become absent, and the first free-run frame begins. -/
def execDeadlineExpiry (s : State) : Answer :=
  event (fun s =>
    if s.timing.free || s.timing.deadline.isNone then s
    else
      let t := drain (cutFrame s)
      outputFrameStart true { t with
        rx := { t.rx with measured := none, prevStart := none }
        timing := { t.timing with free := true, deadline := none } }) s

/-- FREE_RUN_FRAME_END (R7): the free-run frame ends with its report, and the next begins. -/
def execFreeRunFrameEnd (s : State) : Answer :=
  event (fun s => if s.timing.free then outputFrameStart true (outputFrameEnd none 0 s) else s) s

/-- FREE_RUN_PIXEL_SENT (R9, R57): the next pixel of the raster is sent black and signed. -/
def execFreeRunPixelSent (s : State) : Answer :=
  event (fun s =>
    match s.timing.frame with
    | .freeRun z sent =>
      if sent < z.width * z.height then
        sendPixel (sent % z.width) (sent / z.width) 0 0 0 { s with timing.frame := .freeRun z (sent + 1) }
      else s
    | _ => s) s

end Sys2Proof.Machine
end

