-- ==== Sys2Proof/Machine/Receiver.lean ====
section
/-! DEFINITION. The link receiver: rows and pixels, service line recognition, header and packet checks, and the placing
of packets (Chapter 10). -/

namespace Sys2Proof.Machine

/-- The service marker (R158). -/
def marker : List Byte := [0x3A, 0xC5, 0x71, 0x8E, 0x2C, 0xD3, 0x65, 0x9A]

/-- The largest line byte count: 3 · 7680 − 12 (R159). -/
def maxLineCount : Nat := 23028

/-- A packet offered to the command queue: placed as the newest entry, or discarded at a full queue with OVERRUN
(R161). -/
def offerPacket (p : Packet) (row : Nat) (s : State) : State :=
  if s.eng.queue.length < Config.commandQueueSize then { s with eng.queue := s.eng.queue ++ [p] }
  else enterHold .overrun (some p.tag) (some row) none s

/-- The decoder of the frame in progress set. -/
def setDec (d : Decoder) (s : State) : State :=
  match s.rx.frame with
  | none => s
  | some f => { s with rx.frame := some { f with dec := d } }

/-- A fault on a line: the rest of it is skipped and the engine enters hold with CHECK and the row (R159, R160). -/
def lineFault (row : Nat) (d : Decoder) (s : State) : State :=
  enterHold .check none (some row) none (setDec { d with state := .skipping, bytes := [] } s)

/-- The eighth byte of a row has arrived: the row is a service line if all eight are the marker, else the region
closes and the row is picture (R158; Table 52: found at byte 7, log 16). -/
def decideMarker (f : RxFrame) (bytes : List Byte) (s : State) : State :=
  if bytes = marker then
    setDec { idleDecoder with state := .header, bytes := bytes } { s with rx.serviceRows := s.rx.serviceRows + 1 }
  else { s with rx.frame := some { f with regionOpen := false, dec := idleDecoder } }

/-- The two-byte field at a place of gathered bytes. -/
def halfAt (bytes : List Byte) (i : Nat) : BitVec 16 := byteHalf (bytes.getD i 0) (bytes.getD (i + 1) 0)

/-- The twelfth byte of a service line has arrived: the header's check (CRC-16 of bytes 0..9) and byte count
(R159). -/
def decideHeader (row : Nat) (bytes : List Byte) (s : State) : State :=
  let count := (halfAt bytes 8).toNat
  let d : Decoder := { state := .packets, lineCount := some count, consumed := some 0, bytes := [] }
  if crc16 (bytes.take 10) ≠ halfAt bytes 10 ∨ maxLineCount < count then lineFault row d s
  else if count = 0 then setDec { d with state := .skipping } s
  else setDec d s

/-- The length of a packet from its length code (R160). -/
def packetLength (code : Byte) : Nat := 4 + 4 * (code.toNat + 1) + 2

/-- The packet that its bytes hold (Table 54). -/
def packetOf (bytes : List Byte) : Packet :=
  { tag := bytes.getD 0 0, code := bytes.getD 1 0, payload := bytesWords ((bytes.drop 4).take (bytes.length - 6)) }

/-- The packet in hand after another byte: its length code, its fit within the byte count, and at its last byte its
CRC-16 are tested; a good one is offered (R160). The room for a packet to begin is tested at its first byte (log 17). -/
def decidePacket (row count consumed : Nat) (bytes : List Byte) (s : State) : State :=
  let d : Decoder := { state := .packets, lineCount := some count, consumed := some consumed, bytes := bytes }
  let size := packetLength (bytes.getD 2 0)
  if count < consumed + 4 then lineFault row d s
  else if bytes.length < 3 then setDec d s
  else if 128 ≤ (bytes.getD 2 0).toNat ∨ count < consumed + size then lineFault row d s
  else if bytes.length < size then setDec d s
  else if crc16 (bytes.take (size - 2)) ≠ halfAt bytes (size - 2) then lineFault row d s
  else
    let next : DecState := if consumed + size = count then .skipping else .packets
    offerPacket (packetOf bytes) row
      (setDec { d with state := next, consumed := some (consumed + size), bytes := [] } s)

/-- One byte of a row taken by the decoder (Table 51). -/
def decodeByte (s : State) (x : Byte) : State :=
  match s.rx.frame with
  | none => s
  | some f =>
    let bytes := f.dec.bytes ++ [x]
    match f.dec.state with
    | .matching => if bytes.length < 8 then setDec { f.dec with bytes := bytes } s else decideMarker f bytes s
    | .header => if bytes.length < 12 then setDec { f.dec with bytes := bytes } s else decideHeader f.row bytes s
    | .packets => decidePacket f.row (f.dec.lineCount.getD 0) (f.dec.consumed.getD 0) bytes s
    | .idle => s
    | .skipping => s

/-- The three bytes of a pixel: the top 8 bits of each component's field, R first (R157). -/
def pixelBytes (r g b : BitVec 12) : List Byte := [r.extractLsb' 4 8, g.extractLsb' 4 8, b.extractLsb' 4 8]

/-- The frame as its next pixel finds it: a row begun if none is in progress, and at a row's first pixel the decoder
MATCHING while the region is open (R156, R158). -/
def openRow (f : RxFrame) : RxFrame :=
  let g := if f.rowOpen then f else { f with row := nextCount f.row, pixels := 0, rowOpen := true, dec := idleDecoder }
  if g.regionOpen && g.pixels == 0 && g.dec.state == .idle then { g with dec := { idleDecoder with state := .matching } }
  else g

/-- PIXEL_RECEIVED (R1, R156, R157): with a frame in progress the pixel is counted, passed to the pipeline, and its
three bytes decoded. -/
def execPixelReceived (r g b : BitVec 12) (s : State) : Answer :=
  event (fun s =>
    match s.rx.frame with
    | none => s
    | some f =>
      let h := openRow f
      (pixelBytes r g b).foldl decodeByte
        { s with rx.frame := some { h with pixels := nextCount h.pixels }
                 pipe.input := s.pipe.input ++ [⟨h.pixels, h.row, r, g, b⟩] }) s

/-- The region after a row: open while each row was a service line and the next is one of rows 0 to 11 (R158). -/
def regionAfter (f : RxFrame) (serviceRows : Nat) : Bool :=
  f.regionOpen && decide (serviceRows = f.row + 1) && decide (f.row < 11)

/-- ROW_END (R156, R158, R162): the row in progress is complete; a line left in HEADER or PACKETS is cut short. -/
def execRowEnd (s : State) : Answer :=
  event (fun s =>
    match s.rx.frame with
    | none => s
    | some f =>
      if f.rowOpen then
        let t := cutLine f s
        { t with rx.frame := some { f with
            rowOpen := false
            firstRow := if f.row = 0 then some f.pixels else f.firstRow
            regionOpen := regionAfter f s.rx.serviceRows
            dec := idleDecoder } }
      else s) s

end Sys2Proof.Machine
end

