-- ==== Sys2Proof/Machine/RegionTable.lean ====
section
/-! DEFINITION. The region profile table and its commands (Chapter 6). -/

namespace Sys2Proof.Machine

/-- The pending ceiling and gains take an entry's (R14). -/
def PendingContext.follow (c : PendingContext) (p : Profile) : PendingContext :=
  { c with ceiling := p.ceiling, gains := p.gains }

/-- An index of 16 or above (R106). -/
def badIndex (w : Word) : Bool × Reason := (decide (Config.profileEntries ≤ topByte w), .index)

/-- PROFILE WRITE (R106, R107): LENGTH, INDEX; the entry is stored with clamping and becomes valid, and the pending
context follows it when it is the selected region (R14). -/
def execProfileWrite (tag : Byte) (payload : List Word) (s : State) : Answer :=
  let p : Packet := ⟨tag, 0x60, payload⟩
  let i := topByte (word payload 0)
  let e := (profileOf (word payload 0) (word payload 1) (word payload 2)).clamp
  take p (tested p .change [lengthIs p 3, badIndex (word payload 0)] fun s =>
    let t := { s with
      region.entries := s.region.entries.set i (some e)
      pipe.pending := if s.region.selected = some i then s.pipe.pending.follow e else s.pipe.pending }
    done p (profilePayload t.region t.key.lockedClasses i) t) s

/-- PROFILE READ (R108). -/
def execProfileRead (tag : Byte) (payload : List Word) (s : State) : Answer :=
  let p : Packet := ⟨tag, 0x61, payload⟩
  take p (tested p .plain [lengthIs p 1, badIndex (word payload 0)] fun s =>
    done p (profilePayload s.region s.key.lockedClasses (topByte (word payload 0))) s) s

/-- REGION SELECT (R109): LENGTH, INDEX (16 or above, or an invalid entry); the selection moves and the pending ceiling
and gains take the entry's. -/
def execRegionSelect (tag : Byte) (payload : List Word) (s : State) : Answer :=
  let p : Packet := ⟨tag, 0x62, payload⟩
  let i := topByte (word payload 0)
  take p (tested p .change [lengthIs p 1, badIndex (word payload 0)] fun s =>
    match s.region.entry i with
    | none => refuse p .index [] s
    | some e =>
      done p [selectWord i s.region.selected]
        { s with region.selected := some i, pipe.pending := s.pipe.pending.follow e }) s

end Sys2Proof.Machine
end

