-- ==== Sys2Proof/Machine/Keys.lean ====
section
/-! DEFINITION. Key slots: the KEY commands, programming, verify and the classification of a slot area (Chapter 7). -/

namespace Sys2Proof.Machine

/-! ### Reading the staging buffer and a slot area -/

/-- The bytes of the staging buffer from 0 to n − 1. -/
def KeyUnit.staged (k : KeyUnit) (n : Nat) : List Byte := k.buffer.readList 0 0 n

/-- Data word `i` as the buffer holds it (R124, R165). -/
def KeyUnit.stagedWord (k : KeyUnit) (i : Nat) : Word :=
  byteWord (k.buffer.read 0 (4 * i)) (k.buffer.read 0 (4 * i + 1)) (k.buffer.read 0 (4 * i + 2))
    (k.buffer.read 0 (4 * i + 3))

/-- The class, length and check value of a slot area's header, when its descriptor word is well formed (R128, R168). -/
def KeyUnit.headerFields (k : KeyUnit) (slot : Nat) : Option KeyFields :=
  let d := k.areaWord slot 0
  let cls := bits d.bits 18 16
  let len := bits d.bits 10 0
  if d.mark && decide (1 ≤ cls) && decide (16 ≤ len) && decide (len ≤ 1024) && len % 16 == 0 then
    some ⟨cls, len, (k.areaWord slot 1).bits⟩
  else none

/-- The data words' first `len` bytes (R128). -/
def KeyUnit.areaBytes (k : KeyUnit) (slot len : Nat) : List Byte :=
  wordsBytes ((List.range (len / 4)).map fun i => (k.areaWord slot (2 + i)).bits)

/-- The classification of a slot from its area: the first entry of Table 38 whose condition holds (R128). -/
def KeyUnit.classify (k : KeyUnit) (slot : Nat) : KeyRecord :=
  if k.areaWord slot 0 = .blank ∧ k.areaWord slot 1 = .blank then ⟨.empty, none⟩
  else if k.areaWord slot 259 ≠ .blank then ⟨.damaged, k.headerFields slot⟩
  else match k.headerFields slot with
    | none => ⟨.damaged, none⟩
    | some f =>
      if k.areaWord slot 258 ≠ ⟨completionPattern, true⟩ then ⟨.damaged, some f⟩
      else if crc32 (k.areaBytes slot f.length) ≠ f.check then ⟨.damaged, some f⟩
      else ⟨.locked, some f⟩

/-! ### Commands (R117 to R123) -/

/-- A slot number of 24 or above (R117). -/
def badSlot (w : Word) : Bool × Reason := (decide (Config.keySlots ≤ topByte w), .index)

/-- A declared length that KEY OPEN refuses (R118). -/
def badKeyLength (n : Nat) : Bool := n < 16 || 1024 < n || n % 16 != 0

/-- KEY OPEN (R118): INDEX (slot, then class), LENGTH (payload, then declared length), SLOT, BUSY. A refusal with SLOT
carries the slot and its state, as the reply of an accepted one does. -/
def execKeyOpen (tag : Byte) (payload : List Word) (s : State) : Answer :=
  let p : Packet := ⟨tag, 0x70, payload⟩
  let w := word payload 0
  let slot := topByte w
  let cls := bits w 19 16
  let len := bits w 15 0
  take p (tested p .change
    [badSlot w, (cls == 0 || decide (7 < cls), .index), lengthIs p 2, (badKeyLength len, .length)] fun s =>
      let st := (s.key.record slot).state
      if st ≠ .empty then refuse p .slot [keyWord slot st 0] s
      else if s.key.inFlight then refuse p .busy [] s
      else
        done p [keyWord slot st 0]
          { s with key := { s.key.setRecord slot ⟨.staging, some ⟨cls, len, word payload 1⟩⟩ with
              bound := some slot, received := 0, buffer := [] } }) s

/-- KEY DATA (R119): INDEX, LENGTH (a payload of 128 words), SLOT, ORDER, LENGTH (beyond the declared length); the bytes
are appended at the received count. -/
def execKeyData (tag : Byte) (payload : List Word) (s : State) : Answer :=
  let p : Packet := ⟨tag, 0x71, payload⟩
  let w := word payload 0
  let slot := topByte w
  let offset := bits w 15 0
  let size := 4 * (payload.length - 1)
  take p (fun s =>
    let r := s.key.record slot
    tested p .change
      [badSlot w, (payload.length == 128, .length), (r.state != .staging, .slot),
       (offset != s.key.received, .order), (decide (r.fields.elim 0 KeyFields.length < offset + size), .length)]
      (fun s =>
        done p [put (offset + size) 15 0]
          { s with key := { s.key with
              received := offset + size
              buffer := s.key.buffer.writeList 0 offset (wordsBytes payload.tail) } }) s) s

/-- KEY LOCK (R120, R121): INDEX, LENGTH, SLOT, LENGTH (received count), MISMATCH. A mismatch empties the slot and
carries the CRC computed; accepted, the slot is LOCKING, programming begins, and the reply is deferred. -/
def execKeyLock (tag : Byte) (payload : List Word) (s : State) : Answer :=
  let p : Packet := ⟨tag, 0x72, payload⟩
  let w := word payload 0
  let slot := topByte w
  take p (fun s =>
    let r := s.key.record slot
    let len := r.fields.elim 0 KeyFields.length
    tested p .change
      [badSlot w, lengthIs p 1, (r.state != .staging, .slot), (s.key.received != len, .length)]
      (fun s =>
        let crc := crc32 (s.key.staged len)
        if crc ≠ r.fields.elim 0 KeyFields.check then
          refuse p .mismatch [crc] { s with key := (s.key.setRecord slot ⟨.empty, none⟩).unbind }
        else
          { s with key := { s.key.setRecord slot ⟨.locking, r.fields⟩ with prog := some ⟨slot, .word 0⟩ }
                   eng.holdKeyLock := some tag }) s) s

/-- KEY ABANDON (R122): INDEX, LENGTH, SLOT, BUSY for a LOCKING slot; a STAGING slot becomes EMPTY. -/
def execKeyAbandon (tag : Byte) (payload : List Word) (s : State) : Answer :=
  let p : Packet := ⟨tag, 0x73, payload⟩
  let w := word payload 0
  let slot := topByte w
  take p (fun s =>
    let st := (s.key.record slot).state
    tested p .change
      [badSlot w, lengthIs p 1, (st == .empty || st == .locked || st == .damaged, .slot), (st == .locking, .busy)]
      (fun s =>
        done p [put s.key.received 15 0] { s with key := (s.key.setRecord slot ⟨.empty, none⟩).unbind }) s) s

/-- KEY QUERY (R123). -/
def execKeyQuery (tag : Byte) (payload : List Word) (s : State) : Answer :=
  let p : Packet := ⟨tag, 0x74, payload⟩
  take p (tested p .plain [badSlot (word payload 0), lengthIs p 1] fun s =>
    done p (keyQueryPayload s.key (topByte (word payload 0))) s) s

/-! ### Programming and verify (R124, R125) -/

/-- The words that programming writes: declared length / 4 + 3 (R124). -/
def KeyFields.steps (f : KeyFields) : Nat := f.length / 4 + 3

/-- The place in the slot area of programming step `i` (Table 36, R124). -/
def KeyFields.place (f : KeyFields) (i : Nat) : Nat := if i + 1 = f.steps then 258 else i

/-- The value asked for in programming step `i` (R124, R168). -/
def KeyFields.asked (f : KeyFields) (k : KeyUnit) (i : Nat) : Word :=
  if i = 0 then descriptorWord f
  else if i = 1 then f.check
  else if i + 1 = f.steps then completionPattern
  else k.stagedWord (i - 2)

/-- A word programmed: its mark is set, then the bits asked for, but for those that stay clear; a bit set stays set
(R116). -/
def KeyUnit.program (k : KeyUnit) (slot i : Nat) (asked stuck : Word) : KeyUnit :=
  let old := k.areaWord slot i
  { k with array := k.array.write .blank (Config.slotAreaWords * slot + i) ⟨old.bits ||| (asked &&& ~~~stuck), true⟩ }

/-- The words that fail the verify's comparison: each programmed word against the value asked for, and the void word
against blank (R125). -/
def KeyUnit.verifyFailures (k : KeyUnit) (slot : Nat) (f : KeyFields) : Nat :=
  ((List.range f.steps).filter fun i => k.areaWord slot (f.place i) != ⟨f.asked k i, true⟩).length +
    (if k.areaWord slot 259 = .blank then 0 else 1)

/-- The deferred reply of KEY LOCK: completion, and slot, state and words failed (R125, R127). -/
def postKeyLock (c : Completion) (slot : Nat) (st : SlotState) (failed : Nat) (s : State) : State :=
  match s.eng.holdKeyLock with
  | none => s
  | some tag => postDeferred .key tag 0x72 c [keyWord slot st failed] { s with eng.holdKeyLock := none }

/-- Programming is broken off: nothing further is programmed, the slot stays LOCKING, and the reply is FAILED with
ABORTED (R127). -/
def breakKeyLock (slot : Nat) (s : State) : State :=
  postKeyLock (.failed .aborted) slot .locking 0 { s with key.prog := none }

/-- A programming phase that ends with the slot in a final state: buffer cleared, reply posted (R125). -/
def endKeyLock (slot : Nat) (r : KeyRecord) (c : Completion) (failed : Nat) (s : State) : State :=
  postKeyLock c slot r.state failed { s with key := { (s.key.setRecord slot r).unbind with prog := none } }

/-- KEY_WORD_PROGRAMMED (R116, R124, R125, R127): the word in hand ends, with `stuck` bits left clear. The next word
or the verify begins; after a RESTART nothing further is programmed (log 18). The void word's end makes the slot
DAMAGED. -/
def execKeyWordProgrammed (stuck : Word) (s : State) : Answer :=
  event (fun s =>
    match s.key.prog with
    | none => s
    | some ⟨slot, phase⟩ =>
      match phase, (s.key.record slot).state, (s.key.record slot).fields with
      | .word i, .locking, some f =>
        let t := { s with key := s.key.program slot (f.place i) (f.asked s.key i) stuck }
        if s.eng.restarting then postRestart (breakKeyLock slot t)
        else
          let next : KeyPhase := if i + 1 = f.steps then .verify else .word (i + 1)
          { t with key.prog := some ⟨slot, next⟩ }
      | .void failed, .locking, _ =>
        let k := s.key.program slot 259 voidPattern stuck
        postRestart (endKeyLock slot ⟨.damaged, k.headerFields slot⟩ (.failed .program) failed { s with key := k })
      | _, _, _ => s) s

/-- KEY_VERIFY_END (R125): every comparison holds and the slot becomes LOCKED, or programming of the void word
begins. -/
def execKeyVerifyEnd (s : State) : Answer :=
  event (fun s =>
    match s.key.prog with
    | none => s
    | some ⟨slot, phase⟩ =>
      match phase, (s.key.record slot).state, (s.key.record slot).fields with
      | .verify, .locking, some f =>
        let n := s.key.verifyFailures slot f
        if n = 0 then endKeyLock slot ⟨.locked, some f⟩ .done 0 s
        else { s with key.prog := some ⟨slot, .void n⟩ }
      | _, _, _ => s) s

/-- The word of a slot area that is being programmed (R124, R125). -/
def KeyUnit.inHand (k : KeyUnit) (slot word : Nat) : Bool :=
  match k.prog with
  | none => false
  | some ⟨sl, phase⟩ =>
    sl == slot && (match phase, (k.record slot).fields with
      | .word i, some f => f.place i == word
      | .void _, _ => word == 259
      | _, _ => false)

/-- KEY_ARRAY_STORAGE_FAULT (R125): a bit of an unprogrammed word outside the header is set. A programmed word, a word
being programmed and the void word of a LOCKED slot do not change (R113, R116; log 27). Whether the part has power makes
no difference: the array is not volatile, and the fault strikes it either way (DESIGN CHOICE, log 27). -/
def execKeyArrayStorageFault (slot word bit : Nat) (s : State) : Answer :=
  if !keyBitOk slot word bit then .fault .noSuchKeyBit
  else
    let v := s.key.areaWord slot word
    if word < 2 || v.mark || s.key.inHand slot word || (word == 259 && (s.key.record slot).state == .locked) then
      .next s
    else
      let struck : KeyWord := ⟨v.bits ||| (1#32 <<< bit), false⟩
      .next { s with key.array := s.key.array.write .blank (Config.slotAreaWords * slot + word) struck }

end Sys2Proof.Machine
end

