-- ==== Sys2Proof/Machine/Lifecycle.lean ====
section
/-! DEFINITION. The lifecycle controller's commands and the commit (Chapter 8, R130 to R142). -/

namespace Sys2Proof.Machine

/-! ### The commit's flash operations (R135) -/

/-- Sectors that an image of n node words occupies (R135). -/
def imageSectors (n : Nat) : Nat := ((headerSize + n + 2) * 4 + sectorBytes - 1) / sectorBytes

/-- The flash byte address of an operation (R137). -/
def FlashOp.address : FlashOp → Nat
  | .erase sector => sectorBytes * sector
  | .program page _ => 4 * pageWords * page

/-- The flash after an operation: what was asked, or, where the part reports an error or reads back a difference, the
words `left` (log 20). That these may keep a whole image where the erase of sector 0 that a RESTART asked for reports an
error, which R139 does not speak of, and that a page asks nothing of the words beyond the image, which R135 leaves open,
are DESIGN CHOICES (log 43, log 44). -/
def FlashOp.apply (op : FlashOp) (error : Bool) (left : List Word) (f : List Host.Cell) : List Host.Cell :=
  match op with
  | .erase sector =>
    if error then flashWrite (flashErase f sector) (sectorBytes / 4 * sector) (left.take (sectorBytes / 4))
    else flashErase f sector
  | .program page ws =>
    flashWrite f (pageWords * page) (if left.isEmpty then ws else left.take pageWords)

/-- The operation has failed: it reports an error, or a page reads back different from what was asked (R135, R137). Words
of the page beyond the end of the image count: they are to be as erased (DESIGN CHOICE, log 44). -/
def FlashOp.failed (op : FlashOp) (error : Bool) (after : List Host.Cell) : Bool :=
  error || (match op with
    | .erase _ => false
    | .program page ws =>
      flashWords after (pageWords * page) pageWords != ws ++ List.replicate (pageWords - ws.length) 0xFFFFFFFF)

/-- The operations of phase TRAILER: the page with the image CRC word last (R135). -/
def trailerOps (n : Nat) (page : List Word) (crc : Word) : List FlashOp :=
  let m := headerSize + n
  if (m + 1) % pageWords = 0 then
    [.program ((m + 1) / pageWords) [~~~crc], .program (m / pageWords) (page ++ [crc])]
  else [.program (m / pageWords) (page ++ [crc, ~~~crc])]

/-- The operation programs the page that holds the image CRC word, the last page operation of every commit (R135). -/
def Commit.isCrcPage (c : Commit) : FlashOp → Bool
  | .erase _ => false
  | .program page _ => c.phase == .trailer && page == (headerSize + c.n) / pageWords

/-- The header words of the image, from what stands since acceptance (R135, R21, R111). -/
def commitHeader (c : Commit) (s : State) : List Word :=
  match s.store.geometry c.bank, s.region.selected, s.region.selectedEntry with
  | some g, some i, some p => headerWords g i p s.pipe.pending
  | _, _, _ => []

/-- Phase HEADER, which takes no flash operation, and the beginning of phase WORDS (R135; log 19). -/
def beginWords (c : Commit) (s : State) : Commit :=
  let header := commitHeader c s
  { c with phase := .words, ops := [], page := header, crc := crc32 (wordsBytes header) }

/-- A node word taken by the commit reader: fed to the CRC, placed in the image and counted; a page that fills is
programmed, and after the last word the rest of the image is (R135). -/
def takeWord (c : Commit) (w : Word) : Commit :=
  let page := c.page ++ [w]
  let crc := crc32From c.crc (wordBytes w)
  let full := page.length = pageWords
  let ops := if full then c.ops ++ [.program ((headerSize + c.taken) / pageWords) page] else c.ops
  let page := if full then [] else page
  if c.taken + 1 < c.n then { c with taken := c.taken + 1, crc := crc, ops := ops, page := page }
  else { c with taken := c.taken + 1, crc := crc, phase := .trailer, ops := ops ++ trailerOps c.n page crc, page := [] }

/-- A commit that stops: no further word is read and no further page programmed, the operation in progress runs to its
end, and sector 0 is then erased (R137, R138). -/
def Commit.halt (c : Commit) (why : CommitStop) : Commit := { c with stop := some why, ops := c.ops.take 1 ++ [.erase 0] }

/-! ### The end of a commit (R136 to R139) -/

/-- The COMMIT's deferred reply, and, where it has been posted, that of a COMMIT ABORT in hand (R138, R147). -/
def postCommit (r : Completion) (payload : List Word) (s : State) : State :=
  completeAbort (match s.eng.holdCommit with
    | none => s
    | some tag => postDeferred .life tag 0x80 r payload { s with eng.holdCommit := none })

/-- The commit has succeeded (R136, R20). -/
def commitSucceeds (c : Commit) (s : State) : State :=
  postCommit .done [put c.n 19 0, c.crc]
    { s with life := { s.life with lifecycle := .commissioned, commit := none }, pipe.pending.mode := .full }

/-- A stopped commit whose erase of sector 0 has ended, with or without an error (R137 to R139). -/
def commitStopped (c : Commit) (why : CommitStop) (error : Bool) (s : State) : State :=
  let payload := [commitFailedWord c, commitStopWord why]
  match why with
  | .flash _ =>
    postCommit (.failed .flash) payload
      { s with life := { s.life with lifecycle := .factory, commit := none, commitFailed := true } }
  | .ecc _ _ =>
    postCommit (.failed .ecc) payload
      { s with life := { s.life with lifecycle := .factory, commit := none, commitFailed := true } }
  | .abort byRestart =>
    postCommit (.failed .aborted) payload
      { s with life := { s.life with
          lifecycle := if byRestart then s.life.lifecycle else .factory
          commit := none
          commitFailed := s.life.commitFailed || error } }

/-- FLASH_OPERATION_END (R135 to R139): the operation in progress ends, and with it whether the trailer is programmed;
the commit advances, succeeds, fails, or completes its abort. -/
def execFlashOperationEnd (error : Bool) (left : List Word) (s : State) : Answer :=
  event (fun s =>
    match s.life.commit with
    | none => s
    | some c =>
      match c.ops with
      | [] => s
      | op :: rest =>
        let flash := op.apply error left s.life.flash
        let t := { s with life.flash := flash }
        let c := { c with crcEnded := c.crcEnded || c.isCrcPage op }
        match c.stop with
        | some why =>
          if rest.isEmpty then postRestart (commitStopped c why error t)
          else { t with life.commit := some { c with ops := rest } }
        | none =>
          if op.failed error flash then
            { t with life.commit := some { c with stop := some (.flash op.address), ops := [.erase 0] } }
          else
            match rest, c.phase with
            | [], .erase => { t with life.commit := some (beginWords c t) }
            | [], .trailer => commitSucceeds c t
            | _, _ => { t with life.commit := some { c with ops := rest } }) s

/-- COMMIT_READER_WORD (R73, R135): when no row fetch and no scrub claims the port, the next word of the bank under
commit is read and checked. An uncorrectable word stops the commit (R137). -/
def execCommitReaderWord (s : State) : Answer :=
  event (fun s =>
    match s.life.commit with
    | none => s
    | some c =>
      if commitReads s && !fetchClaims s && !scrubClaims s then
        let t := noteRead c.bank c.taken s
        if s.store.findingAt c.bank c.taken = .uncorrectable then
          { t with life.commit := some (c.halt (.ecc c.bank c.taken)) }
        else { t with life.commit := some (takeWord c (s.store.readAt c.bank c.taken)) }
      else s) s

/-! ### Commands (R134, R138, R141, R142) -/

/-- COMMIT (R134): the tests of Table 43 in order; accepted, the lifecycle becomes COMMITTING and the erase of the
image's sectors begins, with the reply deferred. KEYS_MISSING carries the required and locked marks (log 23). -/
def execCommit (tag : Byte) (payload : List Word) (s : State) : Answer :=
  let p : Packet := ⟨tag, 0x80, payload⟩
  take p (fun s =>
    let bank := s.store.active
    tested p .commit
      [lengthIs p 1, ((s.store.geometry bank).isNone, .geometry), (s.region.selectedEntry.isNone, .noRegion)]
      (fun s =>
        let required := s.region.selectedEntry.elim 0 Profile.required
        let locked := s.key.lockedClasses
        if !classesMet required locked then
          refuse p .keysMissing [profileStatus s.region locked (s.region.selected.getD 0)] s
        else if s.life.lifecycle = .committing ∨ s.key.inFlight ∨ s.store.activatePending then refuse p .busy [] s
        else
          let n := (s.store.geometry bank).elim 0 Geometry.count
          { s with
            eng.holdCommit := some tag
            life := { s.life with
              lifecycle := .committing
              commitFailed := false
              commit := some { bank := bank, n := n, phase := .erase, taken := 0, stop := none,
                               ops := (List.range (imageSectors n)).map .erase, page := [], crc := 0,
                               crcEnded := false } } }) s) s

/-- COMMIT ABORT (R138): the commit stops at once, unless it has stopped already, and the command waits for the COMMIT
reply. -/
def execCommitAbort (tag : Byte) (payload : List Word) (s : State) : Answer :=
  let p : Packet := ⟨tag, 0x81, payload⟩
  take p (tested p .abort [lengthIs p 1] fun s =>
    match s.life.commit with
    | none => done p [] s
    | some c =>
      let c := if c.stop.isSome then c else c.halt (.abort false)
      { s with life.commit := some c, eng.inHand := some (.abort tag) }) s

/-- REOPEN (R141). -/
def execReopen (tag : Byte) (payload : List Word) (s : State) : Answer :=
  let p : Packet := ⟨tag, 0x82, payload⟩
  take p (tested p .reopen [lengthIs p 1] fun s => done p [] { s with life.lifecycle := .factory }) s

/-- A pending ACTIVATE is cancelled, with the reply FAILED, ABORTED (R71). -/
def cancelActivate (s : State) : State :=
  if s.store.activatePending then
    let t := { s with store.activatePending := false, eng.holdActivate := none }
    match s.eng.holdActivate with
    | none => t
    | some tag => postDeferred .store tag 0x28 (.failed .aborted) [] t
  else s

/-- The programming of a LOCKING slot is broken off: a verify stops where it is; a word in progress runs to its end
(R127; log 18). -/
def breakProgramming (s : State) : State :=
  match s.key.prog with
  | some ⟨slot, .verify⟩ => breakKeyLock slot s
  | _ => s

/-- A commit in progress is broken off, unless it has stopped already (R137, R139). -/
def breakCommit (s : State) : State :=
  match s.life.commit with
  | none => s
  | some c => if c.stop.isSome then s else { s with life.commit := some (c.halt (.abort true)) }

/-- RESTART (R142): the engine takes nothing more, the work in flight is broken off, the owed replies are posted, and
then the deferred RESTART reply. Where a cancelled ACTIVATE and a stopped verify owe their replies in this one step, the
store's is offered first (R153 leaves the order open; DESIGN CHOICE, log 41). -/
def execRestart (tag : Byte) (payload : List Word) (s : State) : Answer :=
  let p : Packet := ⟨tag, 0x03, payload⟩
  take p (tested p .plain [lengthIs p 1] fun s =>
    postRestart (breakCommit (breakProgramming (cancelActivate
      { s with eng.restarting := true, eng.holdRestart := some tag })))) s

end Sys2Proof.Machine
end

