-- ==== Sys2Proof/Machine/StartUp.lean ====
section
/-! DEFINITION. Power, start-up, the image load, the return lane's end of transmission, and the engine's own commands
(R139, R142 to R146, R150, R155, R163). -/

namespace Sys2Proof.Machine

/-! ### The beginning of start-up (R19, R62, R87, R104, R129, R143) -/

/-- A slot record at the beginning of start-up: a slot leaves STAGING and LOCKING (Table 35); the scan then classifies
it (log 15). -/
def KeyRecord.startUp (r : KeyRecord) : KeyRecord :=
  match r.state with
  | .staging => ⟨.empty, none⟩
  | .locking => ⟨.empty, none⟩
  | _ => r

/-- Start-up begins at an instant (R143): every block takes its start-up values; bank words, key array and flash stand.
What the volatile bank words hold between a removal of power, POWER_ON and the loader's writes, the spec does not say:
they keep what they held (DESIGN CHOICE, log 13). -/
def startUpBegin (now : Nat) (s : State) : State :=
  { s with
    powered := true
    timing := .start now
    rx := .start
    pipe := .start
    mon := .start
    store := .start s.store.bankA s.store.bankB
    buf := .start
    eng := .start
    ret := .start
    region := .start
    key := { s.key.unbind with records := s.key.records.map KeyRecord.startUp, prog := none }
    life := { s.life with lifecycle := .starting, commit := none, commitFailed := false, outcome := .pending,
                          startUp := .scan } }

/-! ### Power (R116, R139, R143) -/

/-- The key array when power goes during the programming of a word: left blank, or marked with some of the bits asked
for (R116). -/
def cutKeyWord (mark : Bool) (set : Word) (k : KeyUnit) : KeyUnit :=
  match k.prog with
  | none => k
  | some ⟨slot, phase⟩ =>
    match mark, phase, (k.record slot).fields with
    | true, .word i, some f => k.program slot (f.place i) (f.asked k i) (~~~set)
    | true, .void _, _ => k.program slot 259 voidPattern (~~~set)
    | _, _, _ => k

/-- Tests 1 and 2 of R144: the failing outcome, or the header read. -/
def readHeader (f : List Host.Cell) : Except StartOutcome ImageHeader :=
  if flashWord f 0 ≠ formatTag then .error .blank
  else if bits (flashWord f 1) 1 0 ≠ lifecycleCode .commissioned then .error .invalid
  else match headerOf (flashWords f 0 headerSize) with
    | none => .error .invalid
    | some h => .ok h

/-- Tests 1 to 3 of R144, over the whole flash: it holds an image that start-up takes, but for the classes. -/
def holdsImage (f : List Host.Cell) : Bool :=
  match readHeader f with
  | .error _ => false
  | .ok h =>
    let crc := crc32 (wordsBytes (flashWords f 0 (headerSize + h.n)))
    flashWord f (headerSize + h.n) == crc && flashWord f (headerSize + h.n + 1) == ~~~crc

/-- The trailer holds a pair of complements (R133). -/
def trailerPaired (f : List Host.Cell) (n : Nat) : Bool :=
  flashWord f (headerSize + n + 1) == ~~~flashWord f (headerSize + n)

/-- The flash as a cut operation leaves it: `todo` marks, word by word, the bits still to be changed (log 20). -/
def FlashOp.cut (op : FlashOp) (todo : List Word) (f : List Host.Cell) : List Host.Cell :=
  match op with
  | .erase sector =>
    let place := sectorBytes / 4 * sector
    flashWrite f place ((flashWords f place (sectorBytes / 4)).mapIdx fun i w => w ||| ~~~(todo.getD i 0))
  | .program page ws => flashWrite f (pageWords * page) (ws.mapIdx fun i w => w ||| todo.getD i 0)

/-- The flash with a header that start-up does not take: where it would hold an image, word 0 reads as erased
(log 21). -/
def spoilHeader (f : List Host.Cell) : List Host.Cell :=
  if holdsImage f then flashWrite f 0 [0xFFFFFFFF] else f

/-- The flash with an unmatched trailer pair: where the pair would match, one bit of the CRC word differs (R139;
log 21). -/
def spoilTrailer (f : List Host.Cell) (n : Nat) : List Host.Cell :=
  if trailerPaired f n then flashWrite f (headerSize + n) [flashWord f (headerSize + n) ^^^ 1] else f

/-- The trailer's programming has ended when power goes (R139): the page of the CRC word is programmed, read back or
not; where it is the operation in progress, no bit of it is still to be changed (log 20). -/
def Commit.trailerEnded (c : Commit) (todo : List Word) : Bool :=
  c.crcEnded || c.ops.head?.any c.isCrcPage && todo.all (· == 0)

/-- The flash when power goes during a commit (R139). Once the trailer's programming has ended it is what the operation
in progress leaves. Before that it holds no image that start-up takes, and a page cut off leaves the trailer pair
unmatched (log 20, log 21). -/
def cutFlashOp (c : Commit) (todo : List Word) (f : List Host.Cell) : List Host.Cell :=
  let g := c.ops.head?.elim f fun op => op.cut todo f
  if c.trailerEnded todo then g
  else match c.ops with
    | .program _ _ :: _ => spoilHeader (spoilTrailer g c.n)
    | _ => spoilHeader g

/-- Power goes: every operation stops, and the word and page in progress are left as given (R116, R139). -/
def cutPower (mark : Bool) (set : Word) (todo : List Word) (s : State) : State :=
  { s with
    powered := false
    key := { cutKeyWord mark set s.key with prog := none }
    life := { s.life with
      flash := s.life.commit.elim s.life.flash fun c => cutFlashOp c todo s.life.flash
      commit := none } }

/-- POWER_REMOVAL (R116, R139). -/
def execPowerRemoval (mark : Bool) (set : Word) (todo : List Word) (s : State) : Answer :=
  event (cutPower mark set todo) s

/-- POWER_ON (R143). Where power had not been removed, it is taken as removed just before, with the word and page in
progress not begun (DESIGN CHOICE, log 22; safe). -/
def execPowerOn (now : Nat) (s : State) : Answer :=
  .next (startUpBegin now (if s.powered then cutPower false 0 (List.replicate 1024 0xFFFFFFFF) s else s))

/-! ### The key scan and the image load (R128, R144 to R146) -/

/-- KEY_ARRAY_SCAN_END (R128): all 24 slots are classified, and the image load begins. -/
def execKeyArrayScanEnd (s : State) : Answer :=
  event (fun s =>
    if s.life.lifecycle = .starting ∧ s.life.startUp = .scan then
      { s with key.records := (List.range Config.keySlots).map s.key.classify, life.startUp := .load .header }
    else s) s

/-- Tests 3 and 4 of R144, once the node words are read: the trailer, then the required classes. -/
def finalOutcome (f : List Host.Cell) (h : ImageHeader) (crc : Word) (locked : BitVec 8) : StartOutcome :=
  if flashWord f (headerSize + h.n) ≠ crc ∨ flashWord f (headerSize + h.n + 1) ≠ ~~~crc then .invalid
  else if classesMet h.profile.required locked then .valid
  else .keys

/-- The load with the flash reads made that its next write needs; one that fails ends it with FLASH (R144). A valid
image is followed by zeros above its words (R145), any other outcome by zeros everywhere (R146). -/
def LoadPhase.advance (ph : LoadPhase) (readFails : Bool) (f : List Host.Cell) (locked : BitVec 8) : LoadPhase :=
  match ph with
  | .header =>
    if readFails then .zero .flash none 0
    else match readHeader f with
      | .error o => .zero o none 0
      | .ok h => .image h 0 (crc32 (wordsBytes (flashWords f 0 headerSize)))
  | .image h k crc =>
    if readFails then .zero .flash none 0
    else if k < h.n then .image h k crc
    else match finalOutcome f h crc locked with
      | .valid => .zero .valid (some h) h.n
      | o => .zero o none 0
  | .zero o h next => .zero o h next

/-- One write of the loader: an image word to bank A, fed to the CRC, or a zero (R144 to R146). R145 and R146 give the zeros
no order: they go upward, bank A first and then bank B (DESIGN CHOICE, log 45). -/
def loaderWrite (ph : LoadPhase) (s : State) : State :=
  match ph with
  | .header => s
  | .image h k crc =>
    let w := flashWord s.life.flash (headerSize + k)
    { s with store := s.store.writeWord .a k w
             life.startUp := .load (.image h (k + 1) (crc32From crc (wordBytes w))) }
  | .zero o h next =>
    if next < Config.bankWords then
      { s with store := s.store.writeWord .a next 0, life.startUp := .load (.zero o h (next + 1)) }
    else if next < 2 * Config.bankWords then
      { s with store := s.store.writeWord .b (next - Config.bankWords) 0, life.startUp := .load (.zero o h (next + 1)) }
    else s

/-- LOADER_WORD_WRITE (R73, R144 to R146). -/
def execLoaderWordWrite (readFails : Bool) (s : State) : Answer :=
  event (fun s =>
    match s.life.lifecycle, s.life.startUp with
    | .starting, .load ph =>
      if fetchClaims s || scrubClaims s then s
      else loaderWrite (ph.advance readFails s.life.flash s.key.lockedClasses) s
    | _, _ => s) s

/-- The image words still to be written, `count` of them from word `k` on, with the CRC over them. -/
def loadRest (f : List Host.Cell) : Nat → Nat → Word → Store → Store × Word
  | 0, _, crc, st => (st, crc)
  | count + 1, k, crc, st =>
    let w := flashWord f (headerSize + k)
    loadRest f count (k + 1) (crc32From crc (wordBytes w)) (st.writeWord .a k w)

/-- Zeros written at every place from `next` on: bank A, then bank B (log 45). -/
def zeroRest (next : Nat) (st : Store) : Store :=
  { st with
    bankA := Memory.clear st.bankA next Config.bankWords
    bankB := Memory.clear st.bankB (next - Config.bankWords) Config.bankWords }

/-- The load ends with an outcome (R145, R146): bank A, the region table, the pending context and the lifecycle. -/
def loadEnds (o : StartOutcome) (h : Option ImageHeader) (s : State) : State :=
  match o, h with
  | .valid, some h =>
    { s with
      store.geomA := some h.geometry
      region := { entries := s.region.entries.set h.index (some h.profile), selected := some h.index }
      pipe.pending := { s.pipe.pending with
        mode := .full, din := h.din, dout := h.dout, rounding := h.rounding, masks := h.masks,
        ceiling := h.profile.ceiling, gains := h.profile.gains, bank := .a, geometry := some h.geometry }
      life := { s.life with lifecycle := .commissioned, outcome := .valid, startUp := .idle } }
  | _, _ =>
    { s with
      pipe.pending := .start
      life := { s.life with lifecycle := .factory, outcome := o, startUp := .idle } }

/-- The load carried to its end from a phase: the writes still to be granted, then the end. -/
def finishLoad (ph : LoadPhase) (s : State) : State :=
  match ph with
  | .zero o h next => loadEnds o h { s with store := zeroRest next s.store }
  | _ => s

/-- START_UP_LOAD_END (R144 to R146). The loader's writes that the sender has not placed as steps of their own are
granted in this step: no reader reads a bank in STARTING (log 6; safe). -/
def execStartUpLoadEnd (readFails : Bool) (s : State) : Answer :=
  event (fun s =>
    match s.life.lifecycle, s.life.startUp with
    | .starting, .load ph =>
      match ph.advance readFails s.life.flash s.key.lockedClasses with
      | .image h k crc =>
        let (st, crc) := loadRest s.life.flash (h.n - k) k crc s.store
        finishLoad (LoadPhase.advance (.image h h.n crc) false s.life.flash s.key.lockedClasses) { s with store := st }
      | ph => finishLoad ph s
    | _, _ => s) s

/-! ### The return lane (R163) -/

/-- A reply is that of an accepted RESTART. -/
def Reply.isRestart (r : Reply) : Bool := r.code == 0x03 && r.completion == .done

/-- REPLY_TRANSMISSION_END (R142, R152, R153, R163): the reply leaves the queue; RESTART's begins start-up, any other
frees an entry for the waiting reply of the highest rank, and the lane begins the next. -/
def execReplyTransmissionEnd (now : Nat) (s : State) : Answer :=
  event (fun s =>
    match s.ret.lane, s.ret.queue with
    | .sending _, r :: rest =>
      if r.isRestart then startUpBegin now s
      else startLane (postRestart (admitWaiter { s with ret := { s.ret with queue := rest, lane := .idle } }))
    | _, _ => s) s

/-! ### The engine's own commands (R148, R150, R155) -/

/-- STATUS (R155). -/
def execStatus (tag : Byte) (payload : List Word) (s : State) : Answer :=
  let p : Packet := ⟨tag, 0x01, payload⟩
  take p (tested p .status [lengthIs p 1] fun s =>
    done p (statusPayload s.life.lifecycle s.life.outcome s.eng.hold) s) s

/-- RELEASE (R150): the hold record as it stood is returned, then hold and the record are cleared. -/
def execRelease (tag : Byte) (payload : List Word) (s : State) : Answer :=
  let p : Packet := ⟨tag, 0x02, payload⟩
  take p (tested p .plain [lengthIs p 1] fun s =>
    done p (holdWords s.eng.hold) { s with eng.hold := none }) s

/-- UNKNOWN_CODE (R148): refused with UNKNOWN once the earlier tests have passed; the payload is not examined. -/
def execUnknownCode (tag code : Byte) (payload : List Word) (s : State) : Answer :=
  let p : Packet := ⟨tag, code, payload⟩
  if knownCode code then .fault .noSuchPacket
  else take p (tested p .plain [(true, .unknown)] fun s => s) s

end Sys2Proof.Machine
end

