-- ==== Sys2Proof/Machine/Dispatch.lean ====
section
/-! DEFINITION. One arm for each row of the opcode table. -/

namespace Sys2Proof.Machine

def exec (i : Instr) (s : State) : Host.Outcome State Fault Refusal :=
  match i with
  | .status tag payload => Sys2Proof.Machine.execStatus tag payload s
  | .release tag payload => Sys2Proof.Machine.execRelease tag payload s
  | .restart tag payload => Sys2Proof.Machine.execRestart tag payload s
  | .anchorSet tag payload => Sys2Proof.Machine.execAnchorSet tag payload s
  | .anchorRead tag payload => Sys2Proof.Machine.execAnchorRead tag payload s
  | .nodeWrite tag payload => Sys2Proof.Machine.execNodeWrite tag payload s
  | .nodeRead tag payload => Sys2Proof.Machine.execNodeRead tag payload s
  | .nodeFill tag payload => Sys2Proof.Machine.execNodeFill tag payload s
  | .geometrySet tag payload => Sys2Proof.Machine.execGeometrySet tag payload s
  | .geometryRead tag payload => Sys2Proof.Machine.execGeometryRead tag payload s
  | .activate tag payload => Sys2Proof.Machine.execActivate tag payload s
  | .logRead tag payload => Sys2Proof.Machine.execLogRead tag payload s
  | .logClear tag payload => Sys2Proof.Machine.execLogClear tag payload s
  | .pipeSet tag payload => Sys2Proof.Machine.execPipeSet tag payload s
  | .pipeRead tag payload => Sys2Proof.Machine.execPipeRead tag payload s
  | .windowSet tag payload => Sys2Proof.Machine.execWindowSet tag payload s
  | .reportRead tag payload => Sys2Proof.Machine.execReportRead tag payload s
  | .conditionsRead tag payload => Sys2Proof.Machine.execConditionsRead tag payload s
  | .captureRead tag payload => Sys2Proof.Machine.execCaptureRead tag payload s
  | .captureClear tag payload => Sys2Proof.Machine.execCaptureClear tag payload s
  | .profileWrite tag payload => Sys2Proof.Machine.execProfileWrite tag payload s
  | .profileRead tag payload => Sys2Proof.Machine.execProfileRead tag payload s
  | .regionSelect tag payload => Sys2Proof.Machine.execRegionSelect tag payload s
  | .keyOpen tag payload => Sys2Proof.Machine.execKeyOpen tag payload s
  | .keyData tag payload => Sys2Proof.Machine.execKeyData tag payload s
  | .keyLock tag payload => Sys2Proof.Machine.execKeyLock tag payload s
  | .keyAbandon tag payload => Sys2Proof.Machine.execKeyAbandon tag payload s
  | .keyQuery tag payload => Sys2Proof.Machine.execKeyQuery tag payload s
  | .commit tag payload => Sys2Proof.Machine.execCommit tag payload s
  | .commitAbort tag payload => Sys2Proof.Machine.execCommitAbort tag payload s
  | .reopen tag payload => Sys2Proof.Machine.execReopen tag payload s
  | .unknownCode tag code payload => Sys2Proof.Machine.execUnknownCode tag code payload s
  | .powerOn now => Sys2Proof.Machine.execPowerOn now s
  | .powerRemoval keyMark keyBits flashBits => Sys2Proof.Machine.execPowerRemoval keyMark keyBits flashBits s
  | .storageFault bank address bit => Sys2Proof.Machine.execStorageFault bank address bit s
  | .inputFrameStart now => Sys2Proof.Machine.execInputFrameStart now s
  | .rowEnd => Sys2Proof.Machine.execRowEnd s
  | .inputFrameEnd => Sys2Proof.Machine.execInputFrameEnd s
  | .linkLoss => Sys2Proof.Machine.execLinkLoss s
  | .pixelReceived r g b => Sys2Proof.Machine.execPixelReceived r g b s
  | .pixelProcess => Sys2Proof.Machine.execPixelProcess s
  | .deadlineExpiry => Sys2Proof.Machine.execDeadlineExpiry s
  | .freeRunFrameEnd => Sys2Proof.Machine.execFreeRunFrameEnd s
  | .fetchWordRead => Sys2Proof.Machine.execFetchWordRead s
  | .scrubWriteBack => Sys2Proof.Machine.execScrubWriteBack s
  | .engineWordWrite => Sys2Proof.Machine.execEngineWordWrite s
  | .engineWordRead => Sys2Proof.Machine.execEngineWordRead s
  | .commitReaderWord => Sys2Proof.Machine.execCommitReaderWord s
  | .flashOperationEnd error left => Sys2Proof.Machine.execFlashOperationEnd error left s
  | .keyWordProgrammed stuck => Sys2Proof.Machine.execKeyWordProgrammed stuck s
  | .keyVerifyEnd => Sys2Proof.Machine.execKeyVerifyEnd s
  | .keyArrayScanEnd => Sys2Proof.Machine.execKeyArrayScanEnd s
  | .loaderWordWrite readFails => Sys2Proof.Machine.execLoaderWordWrite readFails s
  | .startUpLoadEnd readFails => Sys2Proof.Machine.execStartUpLoadEnd readFails s
  | .replyTransmissionEnd now => Sys2Proof.Machine.execReplyTransmissionEnd now s
  | .freeRunPixelSent => Sys2Proof.Machine.execFreeRunPixelSent s
  | .keyArrayStorageFault slot word bit => Sys2Proof.Machine.execKeyArrayStorageFault slot word bit s

end Sys2Proof.Machine
end

