-- ==== Sys2Proof/Safety.lean ====
section
/-! DEFINITION. The terms in which statements about the part are made: a command answered, a run of commands, the
invariants of a sound state, and the service line that carries packets. -/

namespace Sys2Proof

open Machine

/-- The packet of a station command; an event has none. -/
def Instr.packet : Instr → Option Packet
  | .status g l => some ⟨g, 0x01, l⟩
  | .release g l => some ⟨g, 0x02, l⟩
  | .restart g l => some ⟨g, 0x03, l⟩
  | .anchorSet g l => some ⟨g, 0x18, l⟩
  | .anchorRead g l => some ⟨g, 0x19, l⟩
  | .nodeWrite g l => some ⟨g, 0x20, l⟩
  | .nodeRead g l => some ⟨g, 0x21, l⟩
  | .nodeFill g l => some ⟨g, 0x22, l⟩
  | .geometrySet g l => some ⟨g, 0x24, l⟩
  | .geometryRead g l => some ⟨g, 0x25, l⟩
  | .activate g l => some ⟨g, 0x28, l⟩
  | .logRead g l => some ⟨g, 0x29, l⟩
  | .logClear g l => some ⟨g, 0x2A, l⟩
  | .pipeSet g l => some ⟨g, 0x40, l⟩
  | .pipeRead g l => some ⟨g, 0x41, l⟩
  | .windowSet g l => some ⟨g, 0x50, l⟩
  | .reportRead g l => some ⟨g, 0x51, l⟩
  | .conditionsRead g l => some ⟨g, 0x52, l⟩
  | .captureRead g l => some ⟨g, 0x53, l⟩
  | .captureClear g l => some ⟨g, 0x54, l⟩
  | .profileWrite g l => some ⟨g, 0x60, l⟩
  | .profileRead g l => some ⟨g, 0x61, l⟩
  | .regionSelect g l => some ⟨g, 0x62, l⟩
  | .keyOpen g l => some ⟨g, 0x70, l⟩
  | .keyData g l => some ⟨g, 0x71, l⟩
  | .keyLock g l => some ⟨g, 0x72, l⟩
  | .keyAbandon g l => some ⟨g, 0x73, l⟩
  | .keyQuery g l => some ⟨g, 0x74, l⟩
  | .commit g l => some ⟨g, 0x80, l⟩
  | .commitAbort g l => some ⟨g, 0x81, l⟩
  | .reopen g l => some ⟨g, 0x82, l⟩
  | .unknownCode g c l => some ⟨g, c, l⟩
  | .powerOn _ | .powerRemoval _ _ _ | .storageFault _ _ _ | .inputFrameStart _ | .rowEnd | .inputFrameEnd
  | .linkLoss | .pixelReceived _ _ _ | .pixelProcess | .deadlineExpiry | .freeRunFrameEnd | .fetchWordRead
  | .scrubWriteBack | .engineWordWrite | .engineWordRead | .commitReaderWord | .flashOperationEnd _ _
  | .keyWordProgrammed _ | .keyVerifyEnd | .keyArrayScanEnd | .loaderWordWrite _ | .startUpLoadEnd _
  | .replyTransmissionEnd _ | .freeRunPixelSent | .keyArrayStorageFault _ _ _ => none

/-- The commands that change state (step 2 of R148). -/
def Instr.changes : Instr → Bool
  | .nodeWrite _ _ | .nodeFill _ _ | .geometrySet _ _ | .activate _ _ | .pipeSet _ _ | .profileWrite _ _
  | .regionSelect _ _ | .anchorSet _ _ | .keyOpen _ _ | .keyData _ _ | .keyLock _ _ | .keyAbandon _ _
  | .commit _ _ | .reopen _ _ => true
  | _ => false

/-- The payload length of the commands whose first test of their own is LENGTH and that FACTORY serves (Table 46). -/
def Instr.fixedLength : Instr → Option Nat
  | .status _ _ | .release _ _ | .restart _ _ | .anchorRead _ _ | .geometryRead _ _ | .activate _ _ | .logRead _ _
  | .logClear _ _ | .pipeRead _ _ | .reportRead _ _ | .conditionsRead _ _ | .captureRead _ _ | .captureClear _ _
  | .profileRead _ _ | .regionSelect _ _ | .commit _ _ => some 1
  | .windowSet _ _ => some 2
  | .profileWrite _ _ => some 3
  | .geometrySet _ _ => some 5
  | _ => none

/-- A step at which start-up begins: power-on, or the end of a reply's transmission when it is RESTART's (R143). -/
def Instr.startsUp (c : Instr) (s : State) : Bool :=
  match c with
  | .powerOn _ => true
  | .replyTransmissionEnd _ =>
    s.powered && (match s.ret.lane, s.ret.queue with
      | .sending _, r :: _ => r.isRestart
      | _, _ => false)
  | _ => false

/-- A step at which an output frame starts (R4, R7). -/
def Instr.startsFrame : Instr → Bool
  | .inputFrameStart _ | .deadlineExpiry | .freeRunFrameEnd => true
  | _ => false

/-- NODE WRITE or NODE FILL, whose refusals enter hold (R93). -/
def Instr.holds : Instr → Bool
  | .nodeWrite _ _ | .nodeFill _ _ => true
  | _ => false

namespace Machine

/-! ### Commands taken and answered -/

/-- The engine can take the packet now: it can exist (R160), the engine is free (R147), and it is the oldest of the
command queue, or the queue is empty (log 2). -/
def State.canTake (s : State) (p : Packet) : Bool := payloadOk p.payload && engineReady s && isNext p s

/-- The outcome is a next state that is `u` but for the return path, where one reply has been added after every other,
with the summary that `u` gives (R151, R152). -/
def answers (o : Answer) (u : State) (tag code : Byte) (c : Completion) (payload : List Word) : Prop :=
  ∃ t, o = .next t ∧ t = { u with ret := t.ret } ∧
    t.outbox = u.outbox ++ [{ tag := tag, code := code, completion := c, summary := u.summary, payload := payload }]

/-- The outcome is a next state that is `u` but for the return path, where a block has posted the reply of deferred work:
it comes after every other, with the summary that `u` gives (R151, R152), or, while a reply of that block waits, it is
the last that the block has still to post (R153; log 24). -/
def posts (o : Answer) (u : State) (w : Poster) (tag code : Byte) (c : Completion) (payload : List Word) : Prop :=
  ∃ t, o = .next t ∧ t = { u with ret := t.ret } ∧
    (blockFree w u = true →
      t.outbox = u.outbox ++ [{ tag := tag, code := code, completion := c, summary := u.summary, payload := payload }] ∧
        t.ret.later = u.ret.later) ∧
    (blockFree w u = false →
      t.ret = { u.ret with later := u.ret.later ++ [⟨w, u.eng.restarting, tag, code, c, payload⟩] })

/-- A state with the packet taken out of the command queue (R147). -/
def State.taken (s : State) : State := { s with eng.queue := s.eng.queue.tail }

/-- No frame is in progress on the link or at the panel but a free-run one, no pixel waits, and no ACTIVATE is
pending. -/
def State.quiet (s : State) : Bool :=
  s.powered && s.rx.frame.isNone && s.pipe.input.isEmpty && s.timing.owedEnd.isNone && !s.store.activatePending

/-- The engine once a frame in progress has been cut: a service line left in HEADER or PACKETS is cut short, and enters hold
with CHECK and the row (R162). -/
def State.engineCut (s : State) (f : RxFrame) : Engine :=
  if (f.dec.state = .header ∨ f.dec.state = .packets) ∧ s.eng.hold = none then
    { s.eng with hold := some ⟨.check, none, some f.row, none, s.timing.frameNumber⟩ }
  else s.eng

/-- Commands executed one after another; the run stops at a fault or a refusal. -/
def runAll : List Instr → State → Answer
  | [], s => .next s
  | c :: cs, s =>
    match exec c s with
    | .next t => runAll cs t
    | .fault f => .fault f
    | .refused r => .refused r

/-- The place of the row buffer that the fetch of a row takes: an empty slot for rows 0 to 2, and for any other row the
slot that holds the row three above it (R82, R84). -/
def takesSlot (bank : Bank) (row : Nat) (o : Option Slot) : Prop :=
  if row < 3 then o = none else ∃ sl, o = some sl ∧ sl.bank = bank ∧ sl.row + 3 = row

/-- The flash once the operations have ended as asked (R135). -/
def flashAhead (ops : List FlashOp) (f : List Host.Cell) : List Host.Cell :=
  ops.foldl (fun f op => op.apply false [] f) f

/-- The words of the image placed so far: those of full pages as the flash will hold them, and those of the page being
filled (R135). -/
def Commit.imageAhead (c : Commit) (f : List Host.Cell) : List Word :=
  flashWords (flashAhead c.ops f) 0 (64 * ((12 + c.taken) / 64)) ++ c.page

/-! ### Invariants -/

/-- Every sparse storage of the part is in its one canonical form. -/
def State.canonical (s : State) : Bool :=
  Memory.wf .zero s.store.bankA && Memory.wf .zero s.store.bankB && Memory.wf .blank s.key.array &&
    Memory.wf 0 s.key.buffer && Memory.wf erasedByte s.life.flash &&
    s.buf.slots.all fun o => o.all fun sl => Memory.wf .none sl.words

/-- Bank and address of every entry differ from those of every later one. -/
def LogEntry.distinct : List LogEntry → Bool
  | [] => true
  | e :: es => es.all (fun x => !x.about e.bank e.addr) && LogEntry.distinct es

/-- The queues, the logs and the counts of the part lie within their capacities (R46, R47, R57, R60, R76, R78, R87, R147,
R152, R153, R163): a reply waits only while the reply queue is full, at most one of each block, and the engine's only
while it has no command in hand; a block has more to post only while one of its replies waits; and the lane is IDLE
only while the queue is empty. -/
def State.bounded (s : State) : Bool :=
  decide (s.eng.queue.length ≤ Config.commandQueueSize) && decide (s.ret.queue.length ≤ Config.replyQueueSize) &&
    (s.ret.waiting.isEmpty || s.ret.queue.length == Config.replyQueueSize) &&
    [Poster.store, .key, .life, .engine].all
      (fun w => decide (s.ret.waiting.countP (fun x => x.poster == w) ≤ 1)) &&
    (s.eng.inHand.isNone || s.ret.waiting.all fun x => x.poster != .engine) &&
    s.ret.later.all (fun x => x.poster != .engine && s.ret.waiting.any fun w => w.poster == x.poster) &&
    ((s.ret.lane == .idle) == s.ret.queue.isEmpty) &&
    s.eng.anchors.length == 7 && s.store.log.all (fun e => decide (e.count ≤ 255)) &&
    s.mon.acc.all (fun a => decide (a.pixels ≤ Config.pixelCountTop)) &&
    decide (s.store.scrub.length ≤ Config.scrubQueueSize) &&
    decide (s.store.log.length ≤ Config.logSize) && LogEntry.distinct s.store.log &&
    decide (s.mon.ring.length ≤ Config.ringSize) &&
    decide (s.mon.counts.nodeEcc ≤ Config.countTop) && decide (s.mon.counts.clipLow ≤ Config.countTop) &&
    decide (s.mon.counts.clipHigh ≤ Config.countTop) && decide (s.mon.counts.limit ≤ Config.countTop) &&
    decide (s.mon.trapped ≤ Config.countTop)

/-- The pending bank is the ACTIVE bank and the pending geometry its record (R15). -/
def State.followsActive (s : State) : Bool :=
  s.pipe.pending.bank == s.store.active && s.pipe.pending.geometry == s.store.geometry s.store.active

/-- The pending ceiling and gains are those of the selected entry, which is valid; 16383 and 4096 each while no region
is selected (R14, R105). -/
def State.followsRegion (s : State) : Bool :=
  match s.region.selected with
  | none => s.pipe.pending.ceiling == 16383 && s.pipe.pending.gains == .unity
  | some i =>
    match s.region.entry i with
    | none => false
    | some e => s.pipe.pending.ceiling == e.ceiling && s.pipe.pending.gains == e.gains

/-- The three facts of R132: the ACTIVE bank has a geometry record, a region is selected, and each of its required
classes has a LOCKED slot. -/
def State.committable (s : State) : Bool :=
  (s.store.geometry s.store.active).isSome &&
    s.region.selectedEntry.any fun e => classesMet e.required s.key.lockedClasses

/-- A header that the loader holds has passed test 2 of R144. -/
def ImageHeader.sound (h : ImageHeader) : Bool :=
  h.geometry.valid && decide (h.index < Config.profileEntries) && h.profile.inRange && h.n == h.geometry.count

/-- What the loader holds has passed the tests made so far (R144). -/
def StartUp.sound (u : StartUp) (locked : BitVec 8) : Bool :=
  match u with
  | .idle | .scan | .load .header => true
  | .load (.image h _ _) => h.sound
  | .load (.zero .valid h _) => h.any fun h => h.sound && classesMet h.profile.required locked
  | .load (.zero _ _ _) => true

/-- The settings of the part agree with each other: the pending context follows the ACTIVE bank and the selection
(R14, R15); every record and every profile entry is valid (R65, R104); nothing is loaded in STARTING (R143); and from
COMMIT's acceptance on the facts of R132 hold and no ACTIVATE is pending. -/
def State.consistent (s : State) : Bool :=
  s.followsActive && s.followsRegion &&
    s.store.geomA.all Geometry.valid && s.store.geomB.all Geometry.valid &&
    s.region.entries.length == Config.profileEntries &&
    s.region.entries.all (fun o => o.all Profile.inRange) &&
    s.life.startUp.sound s.key.lockedClasses &&
    (s.life.commit.isNone || s.life.lifecycle == .committing) &&
    (match s.life.lifecycle with
     | .starting =>
       s.store.active == .a && !s.store.activatePending && s.store.geomA.isNone && s.store.geomB.isNone &&
         s.region.selected.isNone && s.region.entries.all Option.isNone
     | .factory => true
     | .committing => s.committable && !s.store.activatePending
     | .commissioned => s.committable && !s.store.activatePending && s.pipe.pending.mode == .full)

/-- Each frame number of a list is the one before it plus 1, modulo 2^32. -/
def risingByOne : List (BitVec 32) → Bool
  | a :: b :: rest => b == a + 1 && risingByOne (b :: rest)
  | _ => true

/-- The frame number of the newest report; 0 while there is none (Table 5). -/
def Monitor.newest (m : Monitor) : BitVec 32 := m.ring.getLast?.elim 0 Report.frame

/-- The frames of the part follow each other (R24, R59, R60): the reports' numbers are consecutive, the newest is that of
the frame before the one in progress, or the last one started; and the timing state, the frame at the panel and the
frame being received agree. -/
def State.framesFollow (s : State) : Bool :=
  risingByOne (s.mon.ring.map Report.frame) &&
    (s.timing.frameNumber == if s.timing.frame = .none then s.mon.newest else s.mon.newest + 1) &&
    (match s.timing.frame with
     | .none => !s.timing.free && s.rx.frame.isNone && s.timing.owedEnd.isNone
     | .input => !s.timing.free && (s.rx.frame.isSome ^^ s.timing.owedEnd.isSome)
     | .freeRun _ _ => s.timing.free && s.rx.frame.isNone && s.timing.owedEnd.isNone)

/-- A slot is STAGING or LOCKING. -/
def SlotState.inFlight (st : SlotState) : Bool := st == .staging || st == .locking

/-- Class and length as a slot record holds them (R113). -/
def KeyFields.ok (f : KeyFields) : Bool :=
  decide (1 ≤ f.cls) && decide (f.cls ≤ 7) && decide (16 ≤ f.length) && decide (f.length ≤ 1024) && f.length % 16 == 0

/-- The fields that a slot record holds in its state (R113). -/
def KeyRecord.ok (r : KeyRecord) : Bool :=
  r.fields.all KeyFields.ok &&
    (match r.state with
     | .empty => r.fields.isNone
     | .staging | .locking | .locked => r.fields.isSome
     | .damaged => true)

/-- The key unit serves one slot at a time (R113, R114): at most one slot is STAGING or LOCKING, it is the one the
staging buffer is bound to, and programming is of a LOCKING slot; none is in flight in STARTING (R129). -/
def State.keysSound (s : State) : Bool :=
  s.key.records.length == Config.keySlots && s.key.records.all KeyRecord.ok &&
    (match s.key.bound with
     | none => s.key.records.all (fun r => !r.state.inFlight) && s.key.received == 0 && s.key.buffer.isEmpty
     | some b =>
       decide (b < Config.keySlots) && s.life.lifecycle != .starting &&
         (List.range Config.keySlots).all (fun i => (s.key.record i).state.inFlight == (i == b)) &&
         decide (s.key.received ≤ (s.key.record b).fields.elim 0 KeyFields.length) && s.key.received % 4 == 0) &&
    (match s.key.prog with
     | none => true
     | some p => s.key.bound == some p.slot && (s.key.record p.slot).state == .locking)

/-- A slot area as programming and storage faults can leave it (R116, R124): no word is marked before the descriptor
word, the header is blank where it is not marked, and once the completion word is marked so is every data word of the
length that the descriptor gives. -/
def KeyUnit.areaSound (k : KeyUnit) (slot : Nat) : Bool :=
  let v := k.areaWord slot
  (List.range Config.slotAreaWords).all (fun w => !(v w).mark || (v 0).mark) &&
    (List.range 2).all (fun w => v w == .blank || (v w).mark) &&
    (!(v 258).mark || (k.headerFields slot).all fun f => (List.range (f.length / 4)).all fun i => (v (2 + i)).mark)

/-- Programming in progress (R124, R125): the words marked are those programmed so far, the descriptor word holds no bit
that was not asked for, and the staged key has the declared CRC (R120). -/
def KeyUnit.progSound (k : KeyUnit) : Bool :=
  match k.prog with
  | none => true
  | some ⟨slot, phase⟩ =>
    (k.record slot).fields.any fun f =>
      let v := k.areaWord slot
      let count := match phase with
        | .word i => i
        | _ => f.steps
      crc32 (k.staged f.length) == f.check && (v 0).bits &&& ~~~descriptorWord f == 0 &&
        (match phase with
         | .word i => decide (i < f.steps)
         | _ => true) &&
        (List.range Config.slotAreaWords).all fun w =>
          (v w).mark == (List.range count).any fun i => f.place i == w

/-- The records are what the start-up scan takes from the array (R113, R128, R129): a LOCKED or DAMAGED slot's is that of
its area, and the area of an EMPTY or STAGING slot is not programmed, except that the scan has yet to look at it. -/
def State.keysScan (s : State) : Bool :=
  s.key.progSound &&
    (List.range Config.keySlots).all fun slot =>
      s.key.areaSound slot &&
        (match (s.key.record slot).state with
         | .locked | .damaged => s.key.classify slot == s.key.record slot
         | .empty | .staging =>
           s.life.lifecycle == .starting && s.life.startUp == .scan || !(s.key.areaWord slot 0).mark
         | .locking => true)

/-! ### Service lines as a station sends them (R159, R160) -/

/-- The bytes of a packet (Table 54), with the reserved byte, which "is not examined" (R160). -/
def packetBytes (reserved : Byte) (p : Packet) : List Byte :=
  let body := [p.tag, p.code, BitVec.ofNat 8 (p.payload.length - 1), reserved] ++ wordsBytes p.payload
  body ++ halfBytes (crc16 body)

/-- The line header for a packet byte count. -/
def lineHeader (count : Nat) : List Byte :=
  let body := marker ++ halfBytes (BitVec.ofNat 16 count)
  body ++ halfBytes (crc16 body)

/-- The bytes of packets, each with its reserved byte. -/
def packetsBytes (ps : List (Byte × Packet)) : List Byte := ps.flatMap fun (reserved, p) => packetBytes reserved p

/-- A service line that carries packets. -/
def serviceLine (ps : List (Byte × Packet)) : List Byte :=
  lineHeader (packetsBytes ps).length ++ packetsBytes ps

/-- The bytes of a row of pixels, as the decoder takes them (R157). -/
def rowBytes (row : List (BitVec 12 × BitVec 12 × BitVec 12)) : List Byte := row.flatMap fun (r, g, b) => pixelBytes r g b

/-- The first byte at which a packet shows a fault when `room` bytes remain within the byte count (R160), and the bytes
up to it: too little room to begin one (log 17), a length code of 128 or more, a length beyond the room, or a check that
is not the CRC-16 of the bytes before it. -/
def faultyPacket (room : Nat) (bytes : List Byte) : Prop :=
  (1 ≤ room ∧ room < 4 ∧ bytes.length = 1) ∨
  (4 ≤ room ∧ bytes.length = 3 ∧
    (128 ≤ (bytes.getD 2 0).toNat ∨ room < 4 + 4 * ((bytes.getD 2 0).toNat + 1) + 2)) ∨
  ((bytes.getD 2 0).toNat < 128 ∧ bytes.length = 4 + 4 * ((bytes.getD 2 0).toNat + 1) + 2 ∧ bytes.length ≤ room ∧
    crc16 (bytes.take (bytes.length - 2)) ≠ halfAt bytes (bytes.length - 2))

/-- A row in the open service region of which no pixel has arrived: row 0 of a frame, or a row that the next pixel
begins (R156, R158). -/
def RxFrame.beforeRow (f : RxFrame) : Bool :=
  f.regionOpen && f.dec == idleDecoder && (!f.rowOpen && decide (f.row < 65535) || f.rowOpen && f.pixels == 0)

/-- The number of that row. -/
def RxFrame.nextRow (f : RxFrame) : Nat := if f.rowOpen then f.row else f.row + 1

end Machine

end Sys2Proof
end

