-- ==== Sys2Proof/Certificates/Slice0/Obligations.lean ====
section
/-! DEFINITION. What is claimed of the model, one proposition for each claim. -/

section

open Sys2Proof Sys2Proof.Machine

/-! ### The step, and what every state keeps -/

/-- The step executes the command at the front of the sender's queue with the queue's rest, and idles on an empty
queue. The queue and the idling are the model's (log 3). -/
def Obligations.StepRunsFrontCommand : Prop :=
  (∀ (s : State) (c : Instr) (rest : List Instr), s.pending = c :: rest → step s = exec c { s with pending := rest }) ∧
  ∀ s : State, s.pending = [] → step s = .next s

/-- Every command that can exist answers a next state, with the sender's queue as it was, in every state: the part
never stops. Four kinds of command that cannot exist fault: a packet whose payload is not 1 to 128 words (R160),
UNKNOWN_CODE with a code that names a command (R148), a bit of no bank word (R63), and a bit of no key array word
(R116). Queue and faults are the model's (log 3, log 31). -/
def Obligations.CommandsCompleteOrFault : Prop :=
  (∀ (c : Instr) (s : State), c.wf = true → ∃ t, exec c s = .next t ∧ t.pending = s.pending) ∧
  (∀ (c : Instr) (p : Packet) (s : State), c.packet = some p → payloadOk p.payload = false →
    exec c s = .fault .noSuchPacket) ∧
  (∀ (tag code : Byte) (l : List Word) (s : State), code ∈ Config.commandCodes →
    exec (.unknownCode tag code l) s = .fault .noSuchPacket) ∧
  (∀ (bank : Bank) (a i : Nat) (s : State), 786431 < a ∨ 38 < i →
    exec (.storageFault bank a i) s = .fault .noSuchBankBit) ∧
  ∀ (slot w i : Nat) (s : State), 23 < slot ∨ 259 < w ∨ 31 < i →
    exec (.keyArrayStorageFault slot w i) s = .fault .noSuchKeyBit

/-- What R143 and the rules it names give for the beginning of start-up, at the state after reset; no value that
the log names as the model's own is part of it. And the state after reset has every invariant below. -/
def Obligations.ResetState : Prop :=
  (let s := State.reset
   (s.life.lifecycle = .starting ∧ s.life.outcome = .pending ∧ s.life.commitFailed = false ∧ s.life.commit = none) ∧
   (s.eng.queue = [] ∧ s.ret.queue = [] ∧ s.eng.inHand = none ∧ s.eng.hold = none ∧ s.ret.waiting = [] ∧
     s.eng.holdActivate = none ∧ s.eng.holdKeyLock = none ∧ s.eng.holdCommit = none ∧ s.eng.holdRestart = none) ∧
   (∀ i, s.eng.anchor i = ⟨0, .none⟩) ∧
   (s.timing.free = false ∧ s.timing.frameNumber = 0 ∧ s.timing.raster = none ∧ s.timing.frame = .none) ∧
   s.pipe.pending = ⟨.bypass, .d10, .d10, .nearest, ⟨false, false, false, false⟩, 16383, ⟨4096, 4096, 4096⟩, .a, none⟩ ∧
   s.pipe.live = ⟨.bypass, .d10, .d10, .nearest, ⟨false, false, false, false⟩, 16383, ⟨4096, 4096, 4096⟩, .a, none,
     .rect ⟨0, 0, 65535, 65535⟩⟩ ∧
   s.mon = ⟨⟨false, false, false, false⟩, ⟨0, 0, 0, 0⟩, 0, none, ⟨0, 0, 65535, 65535⟩, none, []⟩ ∧
   (s.store.active = .a ∧ s.store.activatePending = false ∧ s.store.geomA = none ∧ s.store.geomB = none ∧
     s.store.scrub = [] ∧ s.store.log = []) ∧
   (s.buf.slots = [none, none, none] ∧ s.buf.fetchList = [] ∧ s.buf.fetch = none) ∧
   ((∀ i, s.region.entry i = none) ∧ s.region.selected = none) ∧
   (s.key.bound = none ∧ s.key.received = 0 ∧ (∀ i, s.key.buffer.read 0 i = 0) ∧ s.key.prog = none) ∧
   (s.rx.frame = none ∧ s.rx.measured = none ∧ s.rx.prevStart = none ∧ s.ret.lane = .idle)) ∧
  State.reset.canonical = true ∧ State.reset.bounded = true ∧ State.reset.consistent = true ∧
    State.reset.framesFollow = true ∧ State.reset.keysSound = true ∧ State.reset.keysScan = true

/-- Every step keeps every sparse storage in its one canonical form: equal storages are equal data. The form is
the model's. -/
def Obligations.StepKeepsCanonical : Prop :=
  ∀ s t : State, s.canonical = true → step s = .next t → t.canonical = true

/-- Every step keeps the command and reply queues, the waiting replies, the scrub queue, the error log and the report
ring within their capacities, the log's occurrences, the frame counts and the window pixel count within their tops, and
the anchors seven (R46, R47, R57, R60, R76, R78, R87, R147, R152, R153, R163). A reply waits only at a full reply queue,
at most one of each block, and the lane is IDLE only at an empty queue. How a block with a reply waiting posts its next
one is the model's (log 24). -/
def Obligations.StepKeepsBounded : Prop :=
  ∀ s t : State, s.bounded = true → step s = .next t → t.bounded = true

/-- Every step keeps the settings in agreement: the pending context follows the ACTIVE bank and the selection,
records and entries stay valid, and COMMITTING and COMMISSIONED keep the facts of R132 (R14, R15, R65, R105, R111,
R132). The invariant is the model's. -/
def Obligations.StepKeepsConsistent : Prop :=
  ∀ s t : State, s.consistent = true → step s = .next t → t.consistent = true

/-- Every step keeps the reports' frame numbers consecutive, the newest the number before that of the frame in
progress or of the one last started (R24, R59, R60). -/
def Obligations.StepKeepsFramesFollow : Prop :=
  ∀ s t : State, s.framesFollow = true → step s = .next t → t.framesFollow = true

/-- Every step keeps at most one key slot STAGING or LOCKING, the staging buffer bound to it, and the slot records
with the fields of their states (R113, R114, R129). -/
def Obligations.StepKeepsKeysSound : Prop :=
  ∀ s t : State, s.keysSound = true → step s = .next t → t.keysSound = true

/-- In a consistent state that is COMMISSIONED, the ACTIVE bank has a valid geometry record, a region is selected,
and each class that it requires has a LOCKED slot holding that class (R132); the pending mode is FULL (R20). -/
def Obligations.CommissionedFacts : Prop :=
  ∀ s : State, s.consistent = true → s.life.lifecycle = .commissioned →
    s.pipe.pending.mode = .full ∧
    (∃ g, s.store.geometry s.store.active = some g ∧ g.valid = true) ∧
    ∃ i e, s.region.selected = some i ∧ i < 16 ∧ s.region.entry i = some e ∧
      ∀ c, c < 8 → e.required.getLsbD c = true →
        ∃ r ∈ s.key.records, r.state = .locked ∧ ∃ f, r.fields = some f ∧ f.cls = c

/-- The lifecycle moves only as Table 40 says, from consistent states: to STARTING where start-up begins; from
STARTING at the load's end, by its outcome; to COMMITTING by COMMIT in FACTORY; out of COMMITTING at a flash
operation's end; from COMMISSIONED to FACTORY by REOPEN. -/
def Obligations.LifecycleMoves : Prop :=
  ∀ (c : Instr) (s t : State), s.consistent = true → exec c s = .next t → t.life.lifecycle ≠ s.life.lifecycle →
    (c.startsUp s = true ∧ t.life.lifecycle = .starting ∧ t.life.outcome = .pending) ∨
    (∃ f, c = .startUpLoadEnd f ∧ s.life.lifecycle = .starting ∧
      t.life.lifecycle = if t.life.outcome = .valid then .commissioned else .factory) ∨
    (∃ tag l, c = .commit tag l ∧ s.life.lifecycle = .factory ∧ t.life.lifecycle = .committing) ∨
    (∃ e l, c = .flashOperationEnd e l ∧ s.life.lifecycle = .committing ∧
      (t.life.lifecycle = .commissioned ∨ t.life.lifecycle = .factory)) ∨
    ∃ tag l, c = .reopen tag l ∧ s.life.lifecycle = .commissioned ∧ t.life.lifecycle = .factory

/-- "The live context then stays as it is until the next output frame start" (R11), or until start-up begins
(R19). A filled capture record stands until CAPTURE CLEAR or start-up (R51), and a sticky flag until CONDITIONS
READ or start-up (R49). -/
def Obligations.FrameStateKept : Prop :=
  (∀ (c : Instr) (s t : State), exec c s = .next t → c.startsFrame = false → c.startsUp s = false →
     t.pipe.live = s.pipe.live) ∧
  ∀ (c : Instr) (s t : State), exec c s = .next t → c.startsUp s = false →
    (∀ r, s.mon.capture = some r → t.mon.capture = some r ∨ t.mon.capture = none ∧ ∃ tag l, c = .captureClear tag l) ∧
    ∀ k, s.mon.sticky.get k = true → t.mon.sticky.get k = true ∨ ∃ tag l, c = .conditionsRead tag l

/-- "If the engine is already held, the hold and the record stay as they are": a record, once filled, stands until
RELEASE or start-up clears it (R149, R150). "No command taken while the engine is held, other than RESTART,
changes a node-plane word, a geometry record, a bank role, an anchor, a key slot, a region profile, the region
selection or the pending frame context" (R149). -/
def Obligations.HoldStands : Prop :=
  (∀ (c : Instr) (s t : State) (h : HoldRecord), s.eng.hold = some h → exec c s = .next t →
     t.eng.hold = some h ∨
       t.eng.hold = none ∧ (c.startsUp s = true ∨ ∃ tag l, c = .release tag l)) ∧
  ∀ (c : Instr) (p : Packet) (s t : State), c.packet = some p → (∀ tag l, c ≠ .restart tag l) →
    s.eng.hold.isSome = true → exec c s = .next t →
    t.store.bankA = s.store.bankA ∧ t.store.bankB = s.store.bankB ∧ t.store.geomA = s.store.geomA ∧
    t.store.geomB = s.store.geomB ∧ t.store.active = s.store.active ∧ t.eng.anchors = s.eng.anchors ∧ t.key = s.key ∧
    t.region = s.region ∧ t.pipe.pending = s.pipe.pending

/-- Who changes the store and the flash: bank words only by a granted write of the engine, a scrub or the loader,
or by a storage fault (R63, R72); a geometry record only by GEOMETRY SET, which acts on the LOAD bank, or the end of the
load (R65); the roles only at an output frame start with an ACTIVATE pending (R67, R70); the flash only at a flash
operation's end or a power failure (R135, R139, R146). Start-up sets records and roles. The model's: that a removal of
power, POWER_ON and RESTART's start-up keep the bank words (log 13), that START_UP_LOAD_END makes the loader's writes
still to come (log 6), and that POWER_ON of a part with power removes it first (log 22). -/
def Obligations.StoredStateKept : Prop :=
  ∀ (c : Instr) (s t : State), exec c s = .next t →
    (t.store.bankA = s.store.bankA ∧ t.store.bankB = s.store.bankB ∨ c = .engineWordWrite ∨ c = .scrubWriteBack ∨
      (∃ f, c = .loaderWordWrite f) ∨ (∃ f, c = .startUpLoadEnd f) ∨ ∃ bank a i, c = .storageFault bank a i) ∧
    (c.startsUp s = false → ∀ bank, t.store.geometry bank = s.store.geometry bank ∨
      (bank = s.store.load ∧ ∃ tag l, c = .geometrySet tag l) ∨ ∃ f, c = .startUpLoadEnd f) ∧
    (c.startsUp s = false → t.store.active = s.store.active ∨
      (t.store.active = s.store.load ∧ c.startsFrame = true ∧ s.store.activatePending = true)) ∧
    (t.life.flash = s.life.flash ∨ (∃ e l, c = .flashOperationEnd e l) ∨ (∃ m b l, c = .powerRemoval m b l) ∨
      ∃ n, c = .powerOn n)

/-- The key array is one-time programmable: a bit set and a programmed mark stay set (R116). "A key slot that is LOCKED or
DAMAGED stays in that state through every command, RESTART and power-on" (R113): its record stays as it is through every
step, the start-up scan too, which takes from the array the record that is there (R128). That it does is an invariant,
`keysScan`, of sound states, which every step keeps; the invariant is the model's. -/
def Obligations.KeyStorageIsFinal : Prop :=
  ∀ (c : Instr) (s t : State), exec c s = .next t →
    (∀ slot w, w < 260 → ((s.key.areaWord slot w).bits &&& ~~~(t.key.areaWord slot w).bits) = 0 ∧
      ((s.key.areaWord slot w).mark = true → (t.key.areaWord slot w).mark = true)) ∧
    (c ≠ .keyArrayScanEnd → ∀ slot, (s.key.record slot).state = .locked ∨ (s.key.record slot).state = .damaged →
      t.key.record slot = s.key.record slot) ∧
    (c = .keyArrayScanEnd → s.keysScan = true → ∀ slot, slot < 24 →
      (s.key.record slot).state = .locked ∨ (s.key.record slot).state = .damaged →
      t.key.record slot = s.key.record slot) ∧
    (s.canonical = true → s.consistent = true → s.keysSound = true → s.keysScan = true → t.keysScan = true)

/-! ### The command engine (Chapter 9) -/

/-- A reply offered to a queue with room, with no reply waiting, enters as the newest, and an IDLE lane begins to send
the oldest with the credits of that moment; otherwise it waits, after those that wait already (R152, R154, R163). A
freed entry admits the waiting reply of the highest rank: store, key unit, lifecycle controller, engine (R153). "Each
block has at most one reply waiting" (R153): a block posts the reply of deferred work at once where none of its replies
waits, else once the one that waits has been admitted, with the summary of that moment, and a COMMIT ABORT in hand
completes only when its COMMIT's reply has thus been posted (R138, R147). That the block keeps it until then, and that of
several replies of one rank the first offered enters first, are the model's reading (log 24). -/
def Obligations.RepliesEnterByRank : Prop :=
  (∀ (w : Poster) (r : Reply) (s : State),
     (s.ret.queue.length < 64 → s.ret.waiting = [] →
       (offer w r s).ret.queue = s.ret.queue ++ [r] ∧ (offer w r s).ret.waiting = [] ∧
       (offer w r s).ret.lane = (if s.ret.lane = .idle then .sending (320 - s.eng.queue.length) else s.ret.lane)) ∧
     (64 ≤ s.ret.queue.length ∨ s.ret.waiting ≠ [] →
       (offer w r s).ret.queue = s.ret.queue ∧ (offer w r s).ret.lane = s.ret.lane ∧
       (offer w r s).ret.waiting.map Waiter.reply = s.ret.waiting.map Waiter.reply ++ [r])) ∧
  (∀ (w : Poster) (tag code : Byte) (c : Completion) (l : List Word) (s : State),
     (blockFree w s = true ↔ (∀ x ∈ s.ret.waiting, x.poster ≠ w) ∧ ∀ x ∈ s.ret.later, x.poster ≠ w) ∧
     posts (.next (postDeferred w tag code c l s)) s w tag code c l) ∧
  ∀ (s : State), s.ret.queue.length < 64 → s.ret.waiting ≠ [] →
    ∃ l w r, s.ret.waiting = l ++ w :: r ∧ (∀ v ∈ l, v.poster ≠ w.poster) ∧
      (∀ v ∈ l ++ r, v.poster = .store → w.poster = .store) ∧
      (∀ v ∈ l ++ r, v.poster = .key → w.poster = .store ∨ w.poster = .key) ∧
      (∀ v ∈ l ++ r, v.poster = .life → w.poster ≠ .engine) ∧
      ((∀ x ∈ s.ret.later, x.poster ≠ w.poster) →
        admitWaiter s = { s with ret := { s.ret with queue := s.ret.queue ++ [w.reply], waiting := l ++ r } }) ∧
      ∀ a x b, s.ret.later = a ++ x :: b → (∀ y ∈ a, y.poster ≠ w.poster) → x.poster = w.poster →
        let out := s.ret.queue ++ [w.reply] ++ (l ++ r).map Waiter.reply ++
          [⟨x.tag, x.code, x.completion, s.summary, x.payload⟩]
        let t := admitWaiter s
        t = { s with ret := t.ret, eng.inHand := t.eng.inHand } ∧ t.ret.later = a ++ b ∧
        ((∀ tag, s.eng.inHand ≠ some (.abort tag)) ∨ w.poster ≠ .life ∨ s.eng.holdCommit.isSome = true ∨
            (∃ y ∈ b, y.poster = .life) → t.eng.inHand = s.eng.inHand ∧ t.outbox = out) ∧
        (∀ tag, s.eng.inHand = some (.abort tag) → w.poster = .life → s.eng.holdCommit = none →
          (∀ y ∈ b, y.poster ≠ .life) →
          t.eng.inHand = none ∧ t.outbox = out ++ [⟨tag, 0x81, .done, s.summary, []⟩])

/-- The tests of R148, in their order. "In STARTING every command other than STATUS is refused with BUSY", NODE
WRITE and NODE FILL thereby entering hold with no effective address (R93, R131). Held, a command that changes
state is refused with HELD. In COMMISSIONED the changing commands other than ANCHOR SET and REOPEN are refused
with STATE, in COMMITTING those other than COMMIT with BUSY; REOPEN and COMMIT ABORT with STATE where Table 46
says so. Then, for each command whose first test of its own it is, a payload of another length with LENGTH.
Nothing else changes. When a packet is taken is the model's (log 2). -/
def Obligations.EngineTestsRefuse : Prop :=
  (∀ (c : Instr) (p : Packet) (s : State), c.packet = some p → c.wf = true → (∀ tag l, c ≠ .status tag l) →
     s.canTake p = true → s.life.lifecycle = .starting →
     (c.holds = false → answers (exec c s) s.taken p.tag p.code (.refused .busy) []) ∧
     (c.holds = true → s.eng.hold = none →
       answers (exec c s)
         { s.taken with eng.hold := some ⟨.refusal .busy, some p.tag, none, none, s.timing.frameNumber⟩ }
         p.tag p.code (.refused .busy) [])) ∧
  (∀ (c : Instr) (p : Packet) (s : State), c.packet = some p → c.changes = true → s.canTake p = true →
     s.life.lifecycle ≠ .starting → s.eng.hold.isSome = true →
     answers (exec c s) s.taken p.tag p.code (.refused .held) []) ∧
  (∀ (c : Instr) (p : Packet) (s : State), c.packet = some p → s.canTake p = true → s.eng.hold = none →
     let refusedWith (r : Reason) : Prop :=
       answers (exec c s)
         (if c.holds then
           { s.taken with eng.hold := some ⟨.refusal r, some p.tag, none, none, s.timing.frameNumber⟩ }
          else s.taken)
         p.tag p.code (.refused r) []
     (s.life.lifecycle = .commissioned → c.changes = true → (∀ tag l, c ≠ .anchorSet tag l) →
       (∀ tag l, c ≠ .reopen tag l) → refusedWith .state) ∧
     (s.life.lifecycle = .committing → c.changes = true → (∀ tag l, c ≠ .commit tag l) → refusedWith .busy) ∧
     (s.life.lifecycle = .factory → (∃ tag l, c = .reopen tag l) → refusedWith .state) ∧
     (s.life.lifecycle = .factory ∨ s.life.lifecycle = .commissioned → (∃ tag l, c = .commitAbort tag l) →
       refusedWith .state)) ∧
  ∀ (c : Instr) (p : Packet) (n : Nat) (s : State), c.packet = some p → c.fixedLength = some n → s.canTake p = true →
    s.life.lifecycle = .factory → s.eng.hold = none → p.payload.length ≠ n →
    answers (exec c s) s.taken p.tag p.code (.refused .length) []

/-- STATUS answers in every state with its eight words (R155); RELEASE returns the hold record as it stood and
clears hold (R150); a code that names no command is refused with UNKNOWN, whatever its payload (step 4 of R148).
When a packet is taken is the model's (log 2). -/
def Obligations.EngineCommandsAnswer : Prop :=
  (∀ (tag : Byte) (l : List Word) (s : State), s.canTake ⟨tag, 0x01, l⟩ = true → l.length = 1 →
    answers (exec (.status tag l) s) s.taken tag 0x01 .done
      (statusPayload s.life.lifecycle s.life.outcome s.eng.hold)) ∧
  (∀ (tag : Byte) (l : List Word) (s : State), s.canTake ⟨tag, 0x02, l⟩ = true → l.length = 1 →
    s.life.lifecycle ≠ .starting →
    answers (exec (.release tag l) s) { s.taken with eng.hold := none } tag 0x02 .done (holdWords s.eng.hold)) ∧
  ∀ (tag code : Byte) (l : List Word) (s : State), s.canTake ⟨tag, code, l⟩ = true → code ∉ Config.commandCodes →
    s.life.lifecycle ≠ .starting →
    answers (exec (.unknownCode tag code l) s) s.taken tag code (.refused .unknown) []

/-! ### Pipeline and monitor commands (R16, R17, R50 to R55, R61) -/

/-- PIPE SET writes the five pending settings together and returns them; a mode, width or rounding that its word
does not name is refused with FORMAT, and then a payload of other than one word with LENGTH (R16). PIPE READ returns its
fifteen words and changes nothing (R17). When a packet is taken is the model's (log 2). -/
def Obligations.PipeCommandsAnswer : Prop :=
  (∀ (tag : Byte) (w : Word) (mode : PipeMode) (din dout : Depth) (rnd : Rounding) (s : State),
    s.life.lifecycle = .factory → s.eng.hold = none →
    pipeModeOf (bits w 27 24) = some mode → depthOf (bits w 23 16) = some din → depthOf (bits w 15 8) = some dout →
    roundingOf (bits w 7 4) = some rnd →
    (s.canTake ⟨tag, 0x40, [w]⟩ = true →
      answers (exec (.pipeSet tag [w]) s)
        { s.taken with pipe.pending := { s.pipe.pending with
            mode := mode, din := din, dout := dout, rounding := rnd, masks := marksOf w } }
        tag 0x40 .done [w &&& 0x0FFFFFFF]) ∧
    ∀ l : List Word, l ≠ [] → s.canTake ⟨tag, 0x40, w :: l⟩ = true →
      answers (exec (.pipeSet tag (w :: l)) s) s.taken tag 0x40 (.refused .length) []) ∧
  (∀ (tag : Byte) (w : Word) (l : List Word) (s : State),
    s.canTake ⟨tag, 0x40, w :: l⟩ = true → s.life.lifecycle = .factory → s.eng.hold = none →
    1 < bits w 27 24 ∨ depthOf (bits w 23 16) = none ∨ depthOf (bits w 15 8) = none ∨ 2 < bits w 7 4 →
    answers (exec (.pipeSet tag (w :: l)) s) s.taken tag 0x40 (.refused .format) []) ∧
  ∀ (tag : Byte) (l : List Word) (s : State), s.canTake ⟨tag, 0x41, l⟩ = true → l.length = 1 →
    s.life.lifecycle ≠ .starting →
    (pipePayload s).length = 15 ∧ answers (exec (.pipeRead tag l) s) s.taken tag 0x41 .done (pipePayload s)

/-- WINDOW SET writes all four coordinates and returns them (R55); CONDITIONS READ returns the flags and clears
them (R50); CAPTURE READ returns the record, CAPTURE CLEAR empties it and says whether it was filled (R52, R53);
REPORT READ returns the ring, oldest first, twelve words a report (R61). Each is served in every state but
STARTING, held or not. When a packet is taken is the model's (log 2). -/
def Obligations.MonitorCommandsAnswer : Prop :=
  ∀ (tag : Byte) (s : State), s.life.lifecycle ≠ .starting →
    (∀ v w : Word, s.canTake ⟨tag, 0x50, [v, w]⟩ = true →
      answers (exec (.windowSet tag [v, w]) s)
        { s.taken with mon.window := ⟨bits v 31 16, bits v 15 0, bits w 31 16, bits w 15 0⟩ } tag 0x50 .done [v, w]) ∧
    (∀ w : Word, s.canTake ⟨tag, 0x51, [w]⟩ = true →
      (∀ r ∈ s.mon.ring, (reportWords r).length = 12) ∧
      answers (exec (.reportRead tag [w]) s) s.taken tag 0x51 .done
        (put s.mon.ring.length 2 0 :: s.mon.ring.flatMap reportWords)) ∧
    (∀ w : Word, s.canTake ⟨tag, 0x52, [w]⟩ = true →
      answers (exec (.conditionsRead tag [w]) s) { s.taken with mon.sticky := ⟨false, false, false, false⟩ } tag 0x52
        .done [marksWord s.mon.sticky]) ∧
    (∀ w : Word, s.canTake ⟨tag, 0x53, [w]⟩ = true →
      answers (exec (.captureRead tag [w]) s) s.taken tag 0x53 .done (capturePayload s.mon.capture)) ∧
    ∀ w : Word, s.canTake ⟨tag, 0x54, [w]⟩ = true →
      answers (exec (.captureClear tag [w]) s) { s.taken with mon.capture := none } tag 0x54 .done
        [if s.mon.capture.isSome then 1 else 0]

/-! ### Store, anchors and node commands (Chapters 4 and 5) -/

/-- ACTIVATE, with a geometry record in the LOAD bank and none pending, sets activate pending and fills its
holder, with no reply yet (R68, R151); without the record it is refused with GEOMETRY, and a second one with BUSY
(R69). LOG READ returns the number of entries and three words for each, oldest first (R80); LOG CLEAR empties the
log and returns the number removed (R81). GEOMETRY SET with a valid record replaces the LOAD bank's record and no
word (R100, R101), an invalid one is refused with GEOMETRY or LEVELS, one that finds an ACTIVATE pending with
BUSY; GEOMETRY READ returns the record of the bank that holds the role (R102). When a packet is taken is the
model's (log 2). -/
def Obligations.StoreCommandsAnswer : Prop :=
  (∀ (tag : Byte) (w : Word) (s : State), s.canTake ⟨tag, 0x28, [w]⟩ = true → s.life.lifecycle = .factory →
     s.eng.hold = none →
     (s.store.geometry s.store.load = none →
       answers (exec (.activate tag [w]) s) s.taken tag 0x28 (.refused .geometry) []) ∧
     ((s.store.geometry s.store.load).isSome = true → s.store.activatePending = true →
       answers (exec (.activate tag [w]) s) s.taken tag 0x28 (.refused .busy) []) ∧
     ((s.store.geometry s.store.load).isSome = true → s.store.activatePending = false →
       exec (.activate tag [w]) s =
         .next { s.taken with store.activatePending := true, eng.holdActivate := some tag })) ∧
  (∀ (tag : Byte) (w : Word) (s : State), s.life.lifecycle ≠ .starting →
     (s.canTake ⟨tag, 0x29, [w]⟩ = true →
       (∀ e ∈ s.store.log, (logEntryWords e).length = 3) ∧
       answers (exec (.logRead tag [w]) s) s.taken tag 0x29 .done
         (put s.store.log.length 4 0 :: s.store.log.flatMap logEntryWords)) ∧
     (s.canTake ⟨tag, 0x2A, [w]⟩ = true →
       answers (exec (.logClear tag [w]) s) { s.taken with store.log := [] } tag 0x2A .done
         [put s.store.log.length 4 0])) ∧
  (∀ (tag : Byte) (l : List Word) (s : State), s.canTake ⟨tag, 0x24, l⟩ = true → l.length = 5 →
    s.life.lifecycle = .factory → s.eng.hold = none →
    let g := geometryOf l
    (g.fieldsOk = false ∨ g.capacityOk = false →
      answers (exec (.geometrySet tag l) s) s.taken tag 0x24 (.refused .geometry) []) ∧
    (g.fieldsOk = true → g.capacityOk = true → g.levelsOk = false →
      answers (exec (.geometrySet tag l) s) s.taken tag 0x24 (.refused .levels) []) ∧
    (g.valid = true → s.store.activatePending = true →
      answers (exec (.geometrySet tag l) s) s.taken tag 0x24 (.refused .busy) []) ∧
    (g.valid = true → s.store.activatePending = false →
      ∃ st, st.geometry s.store.load = some g ∧ st.geometry s.store.active = s.store.geometry s.store.active ∧
        st = { s.store with geomA := st.geomA, geomB := st.geomB } ∧
        answers (exec (.geometrySet tag l) s) { s.taken with store := st } tag 0x24 .done
          (geometryPayload s.store.load (some g)))) ∧
  ∀ (tag : Byte) (w : Word) (s : State), s.canTake ⟨tag, 0x25, [w]⟩ = true → s.life.lifecycle ≠ .starting →
    (bits w 31 30 = 0 →
      answers (exec (.geometryRead tag [w]) s) s.taken tag 0x25 .done
        (geometryPayload s.store.active (s.store.geometry s.store.active))) ∧
    (bits w 31 30 = 1 →
      answers (exec (.geometryRead tag [w]) s) s.taken tag 0x25 .done
        (geometryPayload s.store.load (s.store.geometry s.store.load))) ∧
    (1 < bits w 31 30 → answers (exec (.geometryRead tag [w]) s) s.taken tag 0x25 (.refused .format) [])

/-- ANCHOR SET, in FACTORY and COMMISSIONED, sets the anchor's value, modulo 2^20, and its mode, and no other
anchor's; a mode of no name is refused with FORMAT, then anchor 0 with INDEX, then a payload of other than two words
with LENGTH (R88). When a packet is taken is the model's (log 2). -/
def Obligations.AnchorSetAnswers : Prop :=
  ∀ (tag : Byte) (v : Word) (l : List Word) (s : State), s.canTake ⟨tag, 0x18, v :: l⟩ = true →
    s.life.lifecycle = .factory ∨ s.life.lifecycle = .commissioned → s.eng.hold = none → s.eng.anchors.length = 7 →
    (anchorModeOf (bits v 1 0) = none →
      answers (exec (.anchorSet tag (v :: l)) s) s.taken tag 0x18 (.refused .format) []) ∧
    ∀ mode, anchorModeOf (bits v 1 0) = some mode →
      (bits v 10 8 = 0 → answers (exec (.anchorSet tag (v :: l)) s) s.taken tag 0x18 (.refused .index) []) ∧
      (bits v 10 8 ≠ 0 → l.length ≠ 1 →
        answers (exec (.anchorSet tag (v :: l)) s) s.taken tag 0x18 (.refused .length) []) ∧
      (∀ i w, bits v 10 8 = i → i ≠ 0 → l = [w] →
        ∃ e, e.anchor i = ⟨w.setWidth 20, mode⟩ ∧ (∀ j, j ≠ i → e.anchor j = s.eng.anchor j) ∧
          e = { s.taken.eng with anchors := e.anchors } ∧
          answers (exec (.anchorSet tag (v :: l)) s) { s with eng := e } tag 0x18 .done
            [anchorWord i ⟨w.setWidth 20, mode⟩])

/-- ANCHOR READ returns the seven anchors, anchor 1 first, each in the form of the ANCHOR SET reply word, and
changes none; a payload of other than one word is refused with LENGTH, and the command with BUSY in STARTING; it
is served in the other three states, held or not, and a refusal does not enter hold (R89). When a packet is taken
is the model's (log 2). -/
def Obligations.AnchorReadAnswers : Prop :=
  ∀ (tag : Byte) (l : List Word) (s : State), s.canTake ⟨tag, 0x19, l⟩ = true →
    (s.life.lifecycle = .starting → answers (exec (.anchorRead tag l) s) s.taken tag 0x19 (.refused .busy) []) ∧
    (s.life.lifecycle ≠ .starting → l.length ≠ 1 →
      answers (exec (.anchorRead tag l) s) s.taken tag 0x19 (.refused .length) []) ∧
    (s.life.lifecycle ≠ .starting → l.length = 1 →
      answers (exec (.anchorRead tag l) s) s.taken tag 0x19 .done
        [anchorWord 1 (s.eng.anchor 1), anchorWord 2 (s.eng.anchor 2), anchorWord 3 (s.eng.anchor 3),
         anchorWord 4 (s.eng.anchor 4), anchorWord 5 (s.eng.anchor 5), anchorWord 6 (s.eng.anchor 6),
         anchorWord 7 (s.eng.anchor 7)])

/-- "The effective address is EA = (value(b) + value(x) + d) modulo 2^20", d the signed displacement of the word's
low 16 bits, b its bits 29..27 and x its bits 26..24 (R90, R91). "When a node command completes successfully with
a run of n words, …, the base anchor is advanced if its mode allows": by n, modulo 2^20, on a write in ON_WRITE
and ON_READ_AND_WRITE, on a read in ON_READ_AND_WRITE; no other anchor is (R87, R92). -/
def Obligations.AnchorsAddressAndAdvance : Prop :=
  (∀ (e : Engine) (w : Word),
     ((effectiveAddress e w).toNat : Int) =
       (((e.anchor (bits w 29 27)).value.toNat : Int) + (e.anchor (bits w 26 24)).value.toNat +
         (BitVec.ofNat 16 (bits w 15 0)).toInt) % 1048576) ∧
  ∀ (run : Run) (write : Bool) (s : State), s.eng.anchors.length = 7 → run.base ≤ 7 →
    let t := advanceAnchor run write s
    let old := s.eng.anchor run.base
    (∀ i, i ≠ run.base → t.eng.anchor i = s.eng.anchor i) ∧
    (t.eng.anchor run.base).mode = old.mode ∧
    ((t.eng.anchor run.base).value.toNat =
      if old.mode = .onReadAndWrite ∨ (old.mode = .onWrite ∧ write = true) then (old.value.toNat + run.n) % 1048576
      else old.value.toNat) ∧
    t = { s with eng.anchors := t.eng.anchors }

/-- The node commands as the engine takes them, when their tests pass: the run is the engine's, with the physical
bank and the effective address of that moment (R67, R91); a NODE WRITE or NODE FILL of no word completes at once
with the next address EA (R94, R98); the effective length of a fill is at most 4,096 (R98). NODE READ is refused with
FORMAT for a role of no name, then with LENGTH for a payload of other than two words or a count of 0 or above 128, then
with ADDRESS (R96). When a packet is taken is the model's (log 2). -/
def Obligations.NodeCommandsTaken : Prop :=
  (∀ (tag : Byte) (w : Word) (role : Role) (s : State), roleOf w = some role →
    let ea := (effectiveAddress s.eng w).toNat
    let bank := s.store.bankOf role
    (s.life.lifecycle = .factory → s.eng.hold = none → (role = .load → s.store.activatePending = false) →
      (∀ ws : List Word, s.canTake ⟨tag, 0x20, w :: ws⟩ = true → ws = [] ∨ ea + ws.length ≤ 786432 →
        (ws = [] → answers (exec (.nodeWrite tag (w :: ws)) s) s.taken tag 0x20 .done [put ea 19 0]) ∧
        (ws ≠ [] → exec (.nodeWrite tag (w :: ws)) s =
          .next { s.taken with eng.inHand := some (.write ⟨tag, bank, bits w 29 27, ws.length, ea⟩ ws) })) ∧
      (∀ v len : Word, s.canTake ⟨tag, 0x22, [w, v, len]⟩ = true →
        let n := min (bits len 19 0) 4096
        (n = 0 → answers (exec (.nodeFill tag [w, v, len]) s) s.taken tag 0x22 .done [0, put ea 19 0]) ∧
        (n ≠ 0 → ea + n ≤ 786432 → exec (.nodeFill tag [w, v, len]) s =
          .next { s.taken with
            eng.inHand := some (.fill ⟨tag, bank, bits w 29 27, n, ea⟩ v n (bits len 19 0 - n)) }))) ∧
    (s.life.lifecycle ≠ .starting →
      ∀ v : Word, s.canTake ⟨tag, 0x21, [w, v]⟩ = true → 1 ≤ bits v 15 0 → bits v 15 0 ≤ 128 →
        (ea + bits v 15 0 ≤ 786432 → exec (.nodeRead tag [w, v]) s =
          .next { s.taken with
            eng.inHand := some
              (.read ⟨tag, bank, bits w 29 27, bits v 15 0, ea⟩ (bits v 15 0) s.eng.hold.isSome []) }) ∧
        (786432 < ea + bits v 15 0 →
          answers (exec (.nodeRead tag [w, v]) s) s.taken tag 0x21 (.refused .address) []))) ∧
  ∀ (tag : Byte) (w : Word) (l : List Word) (s : State), s.canTake ⟨tag, 0x21, w :: l⟩ = true →
    s.life.lifecycle ≠ .starting →
    (1 < bits w 31 30 → answers (exec (.nodeRead tag (w :: l)) s) s.taken tag 0x21 (.refused .format) []) ∧
    (bits w 31 30 ≤ 1 → l.length ≠ 1 ∨ (∃ v, l = [v] ∧ (bits v 15 0 = 0 ∨ 128 < bits v 15 0)) →
      answers (exec (.nodeRead tag (w :: l)) s) s.taken tag 0x21 (.refused .length) [])

/-- "A refusal of NODE WRITE or NODE FILL for any reason other than HELD puts the engine into hold" (R93), here in
FACTORY: with no effective address for a role of no name and for a NODE FILL payload of other than three words, and with
it for a run past the bank's end or for the frozen LOAD bank. The reply already shows the hold. When a packet is taken
is the model's (log 2). -/
def Obligations.NodeRefusalsHold : Prop :=
  ∀ (c : Instr) (p : Packet) (w : Word) (s : State), c.packet = some p → s.canTake p = true →
    s.life.lifecycle = .factory → s.eng.hold = none →
    let ea := (effectiveAddress s.eng w).toNat
    let heldWith (r : Reason) (a : Option Nat) : Prop :=
      answers (exec c s) { s.taken with eng.hold := some ⟨.refusal r, some p.tag, none, a, s.timing.frameNumber⟩ }
        p.tag p.code (.refused r) []
    ((∃ tag ws, c = .nodeWrite tag (w :: ws) ∨ c = .nodeFill tag (w :: ws)) → 1 < bits w 31 30 →
      heldWith .format none) ∧
    ((∃ tag ws, c = .nodeFill tag (w :: ws) ∧ ws.length ≠ 2) → bits w 31 30 ≤ 1 → heldWith .length none) ∧
    ∀ n, (∃ tag ws, c = .nodeWrite tag (w :: ws) ∧ n = ws.length) ∨
        (∃ tag v len, c = .nodeFill tag [w, v, len] ∧ n = min (bits len 19 0) 4096) →
      (bits w 31 30 ≤ 1 → 1 ≤ n → 786432 < ea + n → heldWith .address (some ea)) ∧
      (bits w 31 30 = 1 → n = 0 ∨ ea + n ≤ 786432 → s.store.activatePending = true → heldWith .busy (some ea))

/-- One command write stores the word, its two spare bits 0, with fresh check bits; it leaves every other word;
and in a resident slot of that bank and node row it replaces the copy and clears its poisoned mark, and leaves the
slot's other words and every other slot (R63, R64, R85, R95). A word of no node row of the live geometry, or with no
live geometry, reaches no slot. Nothing else of the part changes. -/
def Obligations.CommandWriteReaches : Prop :=
  ∀ (bank : Bank) (a : Nat) (w : Word) (s : State), s.canonical = true →
    let t := commandWrite bank a w s
    t.store.wordAt bank a = ⟨w &&& 0x3FFFFFFF, 0⟩ ∧
    (∀ o i, o ≠ bank ∨ i ≠ a → t.store.wordAt o i = s.store.wordAt o i) ∧
    t.buf.slots.length = s.buf.slots.length ∧
    (s.pipe.live.geometry = none → t.buf.slots = s.buf.slots) ∧
    (∀ g, s.pipe.live.geometry = some g → g.rowOf a = none → t.buf.slots = s.buf.slots) ∧
    (∀ k : Nat, s.buf.slots[k]? = some none → t.buf.slots[k]? = some none) ∧
    (∀ (k : Nat) (sl : Slot) (g : Geometry) (row : Nat), s.buf.slots[k]? = some (some sl) →
      s.pipe.live.geometry = some g → g.rowOf a = some row →
      (sl.bank = bank → sl.row = row → ∃ sl', t.buf.slots[k]? = some (some sl') ∧
        sl' = { sl with words := sl'.words } ∧
        sl'.words.read .none (a % g.rowWords) = ⟨w &&& 0x3FFFFFFF, false⟩ ∧
        ∀ i, i ≠ a % g.rowWords → sl'.words.read .none i = sl.words.read .none i) ∧
      (sl.bank ≠ bank ∨ sl.row ≠ row → t.buf.slots[k]? = some (some sl))) ∧
    t = { s with
      store := { s.store with bankA := t.store.bankA, bankB := t.store.bankB }
      buf := { s.buf with slots := t.buf.slots } }

/-- The engine's accesses, granted when no fetch and no scrub claims the port and the commit reader does not keep
it (R73; log 5): each writes or reads one word at the run's next address (R95, R97, R99); the last one advances
the anchor (not of a NODE READ taken while held), ends the command and posts its reply. Not granted, the step does
nothing (log 1). -/
def Obligations.EngineAccesses : Prop :=
  ∀ s : State, s.powered = true →
    (s.buf.fetch.isSome = true ∨ s.store.scrub ≠ [] ∨ commitHoldsPort s = true →
      exec .engineWordWrite s = .next s ∧ exec .engineWordRead s = .next s) ∧
    (s.buf.fetch = none → s.store.scrub = [] → commitHoldsPort s = false →
      (∀ (run : Run) (w : Word) (rest : List Word), s.eng.inHand = some (.write run (w :: rest)) →
        let u := commandWrite run.bank run.next w s
        (rest ≠ [] → exec .engineWordWrite s =
          .next { u with eng.inHand := some (.write { run with next := run.next + 1 } rest) }) ∧
        (rest = [] →
          answers (exec .engineWordWrite s) { advanceAnchor run true u with
            eng := { (advanceAnchor run true u).eng with inHand := none } } run.tag 0x20 .done
            [put (run.next + 1) 19 0])) ∧
      (∀ (run : Run) (w : Word) (left residual : Nat), s.eng.inHand = some (.fill run w (left + 1) residual) →
        let u := commandWrite run.bank run.next w s
        (left ≠ 0 → exec .engineWordWrite s =
          .next { u with eng.inHand := some (.fill { run with next := run.next + 1 } w left residual) }) ∧
        (left = 0 →
          answers (exec .engineWordWrite s) { advanceAnchor run true u with
            eng := { (advanceAnchor run true u).eng with inHand := none } } run.tag 0x22 .done
            [residualWord residual, put (run.next + 1) 19 0])) ∧
      (∀ (run : Run) (left : Nat) (held : Bool) (got : List Word),
        s.eng.inHand = some (.read run (left + 1) held got) →
        let u := noteRead run.bank run.next s
        let v := (s.store.readAt run.bank run.next &&& 0x3FFFFFFF) |||
          (if s.store.findingAt run.bank run.next = .uncorrectable then 0x40000000 else 0)
        let a := if held then u else advanceAnchor run false u
        (left ≠ 0 → exec .engineWordRead s =
          .next { u with eng.inHand := some (.read { run with next := run.next + 1 } left held (got ++ [v])) }) ∧
        (left = 0 →
          answers (exec .engineWordRead s) { a with eng := { a.eng with inHand := none } } run.tag 0x21 .done
            (got ++ [v]))))

/-- A NODE WRITE of n words, accepted with no other claim on the port, lands: after the step that takes it and n
granted accesses, the n words stand at EA onward, clean and with spare bits 0; every other word of both banks is
as it was; the base anchor has advanced by n as its mode allows; and the one reply is DONE with EA + n (R92, R94,
R95). When a packet is taken is the model's (log 2). -/
def Obligations.NodeWriteLands : Prop :=
  ∀ (tag : Byte) (w : Word) (ws : List Word) (role : Role) (s : State), s.canonical = true → roleOf w = some role →
    s.canTake ⟨tag, 0x20, w :: ws⟩ = true → s.life.lifecycle = .factory → s.eng.hold = none →
    (role = .load → s.store.activatePending = false) → s.buf.fetch = none → s.store.scrub = [] →
    s.life.commit = none → s.eng.anchors.length = 7 → ws ≠ [] →
    (effectiveAddress s.eng w).toNat + ws.length ≤ 786432 →
    let ea := (effectiveAddress s.eng w).toNat
    let bank := s.store.bankOf role
    ∃ t, runAll (.nodeWrite tag (w :: ws) :: List.replicate ws.length .engineWordWrite) s = .next t ∧
      (∀ i v, ws[i]? = some v → t.store.wordAt bank (ea + i) = ⟨v &&& 0x3FFFFFFF, 0⟩) ∧
      (∀ o a, o ≠ bank ∨ a < ea ∨ ea + ws.length ≤ a → t.store.wordAt o a = s.store.wordAt o a) ∧
      t.eng.inHand = none ∧
      (∀ i, t.eng.anchor i =
        if i = bits w 29 27 ∧ (s.eng.anchor i).mode ≠ .none then
          { s.eng.anchor i with value := (s.eng.anchor i).value + BitVec.ofNat 20 ws.length }
        else s.eng.anchor i) ∧
      t.outbox = s.outbox ++ [⟨tag, 0x20, .done, s.summary, [put (ea + ws.length) 19 0]⟩]

/-! ### The correction store (Chapter 4) -/

/-- What a checked read finds and gives (R74, R75): a word as last written is clean; a word that differs in one
bit is CORRECTED at that position, with the data as written; a word that differs in two is UNCORRECTABLE, given as
read. "Every read of the same stored bits makes the same finding": two words whose 39 stored bits are equal, whatever
was written and however many bits have flipped, are found and given alike (R75). -/
def Obligations.CheckedReadFindings : Prop :=
  (∀ d : Word,
    ((⟨d, 0⟩ : StoredWord).finding = .clean ∧ (⟨d, 0⟩ : StoredWord).used .clean = d) ∧
    (∀ i : Fin 39, (⟨d, 1#39 <<< i.val⟩ : StoredWord).finding = .corrected i ∧
      (⟨d, 1#39 <<< i.val⟩ : StoredWord).used (.corrected i) = d) ∧
    ∀ i j : Fin 39, i < j →
      (⟨d, 1#39 <<< i.val ||| 1#39 <<< j.val⟩ : StoredWord).finding = .uncorrectable ∧
      (⟨d, 1#39 <<< i.val ||| 1#39 <<< j.val⟩ : StoredWord).used .uncorrectable =
        d ^^^ (1#39 <<< i.val ||| 1#39 <<< j.val).extractLsb' 0 32) ∧
  ∀ v w : StoredWord, v.stored = w.stored → v.finding = w.finding ∧ v.used v.finding = w.used w.finding

/-- A STORAGE_FAULT makes one stored bit of one word differ from its last written form, and changes nothing else; on a
bit that differs already it leaves the word (log 26). A scrub write-back, when no row fetch claims the port, makes the
word clean where the stored bits are as read, drops the request else, and in both cases the request leaves the queue
(R63, R73, R77). That a scrub not granted changes nothing is the model's (log 1). -/
def Obligations.FaultAndScrub : Prop :=
  ∀ s : State, s.powered = true → s.canonical = true →
    (∀ (bank : Bank) (a i : Nat), a < 786432 → i < 39 →
      ∃ t, exec (.storageFault bank a i) s = .next t ∧
        t.store.wordAt bank a =
          ⟨(s.store.wordAt bank a).data, (s.store.wordAt bank a).flips ||| (1#39 <<< i)⟩ ∧
        (∀ o x, o ≠ bank ∨ x ≠ a → t.store.wordAt o x = s.store.wordAt o x) ∧
        t = { s with store.bankA := t.store.bankA, store.bankB := t.store.bankB }) ∧
    (∀ (r : ScrubRequest) (rest : List ScrubRequest), s.store.scrub = r :: rest → s.buf.fetch = none →
      ∃ t, exec .scrubWriteBack s = .next t ∧ t.store.scrub = rest ∧
        ((s.store.wordAt r.bank r.addr).stored = r.seen.stored →
          t.store.wordAt r.bank r.addr = ⟨r.fixed &&& 0x3FFFFFFF, 0⟩) ∧
        ((s.store.wordAt r.bank r.addr).stored ≠ r.seen.stored →
          t.store.wordAt r.bank r.addr = s.store.wordAt r.bank r.addr) ∧
        (∀ o x, o ≠ r.bank ∨ x ≠ r.addr → t.store.wordAt o x = s.store.wordAt o x) ∧
        t = { s with store := { s.store with bankA := t.store.bankA, bankB := t.store.bankB, scrub := rest } }) ∧
    (s.buf.fetch.isSome = true → exec .scrubWriteBack s = .next s)

/-- A fetch reads the row's next word as a checked read and delivers it to its slot, poisoned where it is
UNCORRECTABLE (R74, R75, R84); the finding is logged and a CORRECTED one requests its scrub (R76). Before the
row's last word the fetch goes on; after it none is in progress where no row is listed, and else the fetch of the first
row listed begins: its slot is tagged with it at once, with no word delivered, and it leaves the list (R84). Of several
empty slots the first is taken (log 39). -/
def Obligations.FetchDelivers : Prop :=
  ∀ (s : State) (g : Geometry) (i : Nat) (sl : Slot), s.powered = true → s.pipe.live.geometry = some g →
    s.buf.fetch = some i → s.buf.slots[i]? = some (some sl) → Memory.wf .none sl.words = true →
    let a := sl.row * g.rowWords + sl.delivered
    ∃ t sl', exec .fetchWordRead s = .next t ∧
      sl' = { sl with delivered := sl.delivered + 1, words := sl'.words } ∧
      (sl.delivered + 1 < g.rowWords → t.buf = { s.buf with slots := s.buf.slots.set i (some sl') }) ∧
      (g.rowWords ≤ sl.delivered + 1 → s.buf.fetchList = [] →
        t.buf = { s.buf with slots := s.buf.slots.set i (some sl'), fetch := none }) ∧
      (∀ (row k : Nat) (rest : List Nat) (o : Option Slot), g.rowWords ≤ sl.delivered + 1 →
        s.buf.fetchList = row :: rest → (s.buf.slots.set i (some sl'))[k]? = some o →
        takesSlot s.pipe.live.bank row o →
        (∀ m < k, ∀ o', (s.buf.slots.set i (some sl'))[m]? = some o' → ¬ takesSlot s.pipe.live.bank row o') →
        t.buf = { s.buf with
          slots := (s.buf.slots.set i (some sl')).set k (some ⟨s.pipe.live.bank, row, 0, []⟩)
          fetchList := rest
          fetch := some k }) ∧
      sl'.words.read .none sl.delivered =
        ⟨s.store.readAt sl.bank a, decide (s.store.findingAt sl.bank a = .uncorrectable)⟩ ∧
      (∀ x, x ≠ sl.delivered → sl'.words.read .none x = sl.words.read .none x) ∧
      (s.store.findingAt sl.bank a = .clean → t.store = s.store) ∧
      (∀ k, s.store.findingAt sl.bank a = .corrected k →
        t.store = { s.store with
          log := logFinding s.store.log sl.bank a (.corrected k.val) s.timing.frameNumber
          scrub := requestScrub s.store.scrub
            ⟨sl.bank, a, s.store.wordAt sl.bank a, s.store.readAt sl.bank a⟩ }) ∧
      (s.store.findingAt sl.bank a = .uncorrectable →
        t.store = { s.store with
          log := logFinding s.store.log sl.bank a .uncorrectable s.timing.frameNumber }) ∧
      t = { s with store := t.store, buf := t.buf }

/-- What the error log does with a finding (R78, R79), where no two entries are about one word. An entry about the
finding's word has one more occurrence, up to 255; an UNCORRECTABLE finding makes it UNCORRECTABLE, any other leaves
its kind; the other entries stay. Without such an entry the finding is appended with one occurrence while fewer than
16 are held. At a full log a CORRECTED one is not recorded, nor an UNCORRECTABLE one when every entry is
UNCORRECTABLE; else the UNCORRECTABLE one is appended and the oldest CORRECTED entry removed. -/
def Obligations.LogKeepsFindings : Prop :=
  ∀ (log : List LogEntry) (bank : Bank) (a : Nat) (kind : ErrorKind) (frame : BitVec 32),
    LogEntry.distinct log = true →
    let after := logFinding log bank a kind frame
    (∀ (l r : List LogEntry) (e : LogEntry), log = l ++ e :: r → e.bank = bank → e.addr = a →
      ∃ e', after = l ++ e' :: r ∧ e' = { e with count := if e.count < 255 then e.count + 1 else e.count, kind := e'.kind } ∧
        (kind = .uncorrectable → e'.kind = .uncorrectable) ∧ (kind ≠ .uncorrectable → e'.kind = e.kind)) ∧
    ((∀ e ∈ log, e.bank ≠ bank ∨ e.addr ≠ a) →
      (log.length < 16 → after = log ++ [⟨bank, a, kind, frame, 1⟩]) ∧
      (16 ≤ log.length → (kind ≠ .uncorrectable ∨ ∀ e ∈ log, e.kind = .uncorrectable) → after = log) ∧
      (16 ≤ log.length → kind = .uncorrectable →
        ∀ (l r : List LogEntry) (e : LogEntry), log = l ++ e :: r → e.kind ≠ .uncorrectable →
          (∀ x ∈ l, x.kind = .uncorrectable) → after = l ++ r ++ [⟨bank, a, kind, frame, 1⟩]))

/-! ### Region profiles (Chapter 6) -/

/-- PROFILE WRITE stores the profile, its ceiling limited to 16383 and its gains to 4096, and the pending ceiling
and gains take the stored values when the index is the selected region, and are left else (R14, R106, R107);
REGION SELECT of a valid entry selects it and the pending ceiling and gains take its values (R109); PROFILE READ
changes nothing (R108). An index of 16 or above, or of an invalid entry for REGION SELECT, is refused with INDEX.
When a packet is taken is the model's (log 2). -/
def Obligations.RegionCommandsAnswer : Prop :=
  ∀ (tag : Byte) (v : Word) (s : State), s.region.entries.length = 16 → s.life.lifecycle = .factory →
    s.eng.hold = none →
    let i := bits v 31 24
    (∀ w x : Word, s.canTake ⟨tag, 0x60, [v, w, x]⟩ = true →
      (16 ≤ i → answers (exec (.profileWrite tag [v, w, x]) s) s.taken tag 0x60 (.refused .index) []) ∧
      (i < 16 →
        let e : Profile := ⟨min (bits w 31 16) 16383,
          ⟨min (bits w 15 0) 4096, min (bits x 31 16) 4096, min (bits x 15 0) 4096⟩, v.extractLsb' 0 8 &&& 0xFE⟩
        ∃ r, r.entry i = some e ∧ (∀ j, j ≠ i → r.entry j = s.region.entry j) ∧ r.selected = s.region.selected ∧
          r.entries.length = 16 ∧
          answers (exec (.profileWrite tag [v, w, x]) s)
            { s.taken with
              region := r
              pipe.pending := if s.region.selected = some i then
                  { s.pipe.pending with ceiling := e.ceiling, gains := e.gains }
                else s.pipe.pending }
            tag 0x60 .done (profilePayload r s.key.lockedClasses i))) ∧
    (s.canTake ⟨tag, 0x61, [v]⟩ = true →
      (16 ≤ i → answers (exec (.profileRead tag [v]) s) s.taken tag 0x61 (.refused .index) []) ∧
      (i < 16 → answers (exec (.profileRead tag [v]) s) s.taken tag 0x61 .done
        (profilePayload s.region s.key.lockedClasses i))) ∧
    (s.canTake ⟨tag, 0x62, [v]⟩ = true →
      (s.region.entry i = none → answers (exec (.regionSelect tag [v]) s) s.taken tag 0x62 (.refused .index) []) ∧
      ∀ e, s.region.entry i = some e →
        answers (exec (.regionSelect tag [v]) s)
          { s.taken with
            region.selected := some i
            pipe.pending := { s.pipe.pending with ceiling := e.ceiling, gains := e.gains } }
          tag 0x62 .done [selectWord i s.region.selected])

/-! ### Key slots (Chapter 7) -/

/-- The key commands: the tests of Table 37 in their order, and what is accepted: KEY OPEN of an EMPTY slot, KEY DATA at
the received count, KEY LOCK of a complete key whose CRC is the declared one, KEY ABANDON of a STAGING slot, KEY QUERY
in any served state. A refused KEY OPEN reports the slot's state with SLOT, and KEY LOCK's MISMATCH is the one refusal
that changes state (R114, R117 to R123). When a packet is taken is the model's (log 2). -/
def Obligations.KeyCommandsAnswer : Prop :=
  ∀ (tag : Byte) (w : Word) (s : State),
    let slot := bits w 31 24
    (s.life.lifecycle = .factory → s.eng.hold = none →
      (∀ l : List Word, s.canTake ⟨tag, 0x70, w :: l⟩ = true →
        let refusedWith (r : Reason) (payload : List Word) : Prop :=
          answers (exec (.keyOpen tag (w :: l)) s) s.taken tag 0x70 (.refused r) payload
        let len := bits w 15 0
        if 24 ≤ slot ∨ bits w 19 16 = 0 ∨ 7 < bits w 19 16 then refusedWith .index []
        else if l.length ≠ 1 ∨ len < 16 ∨ 1024 < len ∨ len % 16 ≠ 0 then refusedWith .length []
        else if (s.key.record slot).state ≠ .empty then
          refusedWith .slot [put slot 31 24 ||| put (slotStateCode (s.key.record slot).state) 18 16]
        else if s.key.inFlight = true then refusedWith .busy []
        else ∀ check, l = [check] →
          answers (exec (.keyOpen tag (w :: l)) s)
            { s.taken with key := { s.key.setRecord slot ⟨.staging, some ⟨bits w 19 16, len, check⟩⟩ with
                bound := some slot, received := 0, buffer := [] } }
            tag 0x70 .done [put slot 31 24]) ∧
      (∀ ws : List Word, s.canTake ⟨tag, 0x71, w :: ws⟩ = true →
        let refusedWith (r : Reason) : Prop :=
          answers (exec (.keyData tag (w :: ws)) s) s.taken tag 0x71 (.refused r) []
        if 24 ≤ slot then refusedWith .index
        else if ws.length = 127 then refusedWith .length
        else if (s.key.record slot).state ≠ .staging then refusedWith .slot
        else if bits w 15 0 ≠ s.key.received then refusedWith .order
        else ∀ f, (s.key.record slot).fields = some f →
          if f.length < s.key.received + 4 * ws.length then refusedWith .length
          else
            answers (exec (.keyData tag (w :: ws)) s)
              { s.taken with key := { s.key with
                  received := s.key.received + 4 * ws.length
                  buffer := s.key.buffer.writeList 0 s.key.received (wordsBytes ws) } }
              tag 0x71 .done [put (s.key.received + 4 * ws.length) 15 0]) ∧
      (∀ l : List Word, s.canTake ⟨tag, 0x72, w :: l⟩ = true →
        let refusedWith (r : Reason) : Prop :=
          answers (exec (.keyLock tag (w :: l)) s) s.taken tag 0x72 (.refused r) []
        if 24 ≤ slot then refusedWith .index
        else if l ≠ [] then refusedWith .length
        else if (s.key.record slot).state ≠ .staging then refusedWith .slot
        else ∀ f, (s.key.record slot).fields = some f →
          if s.key.received ≠ f.length then refusedWith .length
          else if crc32 (s.key.staged f.length) ≠ f.check then
            answers (exec (.keyLock tag (w :: l)) s)
              { s.taken with key := { s.key.setRecord slot ⟨.empty, none⟩ with
                  bound := none, received := 0, buffer := [] } }
              tag 0x72 (.refused .mismatch) [crc32 (s.key.staged f.length)]
          else
            exec (.keyLock tag (w :: l)) s =
              .next { s.taken with
                key := { s.key.setRecord slot ⟨.locking, some f⟩ with prog := some ⟨slot, .word 0⟩ }
                eng.holdKeyLock := some tag }) ∧
      (∀ l : List Word, s.canTake ⟨tag, 0x73, w :: l⟩ = true →
        let refusedWith (r : Reason) : Prop :=
          answers (exec (.keyAbandon tag (w :: l)) s) s.taken tag 0x73 (.refused r) []
        if 24 ≤ slot then refusedWith .index
        else if l ≠ [] then refusedWith .length
        else if (s.key.record slot).state = .locking then refusedWith .busy
        else if (s.key.record slot).state ≠ .staging then refusedWith .slot
        else
          answers (exec (.keyAbandon tag (w :: l)) s)
            { s.taken with key := { s.key.setRecord slot ⟨.empty, none⟩ with
                bound := none, received := 0, buffer := [] } }
            tag 0x73 .done [put s.key.received 15 0])) ∧
    ∀ l : List Word, s.canTake ⟨tag, 0x74, w :: l⟩ = true → s.life.lifecycle ≠ .starting →
      if 24 ≤ slot then answers (exec (.keyQuery tag (w :: l)) s) s.taken tag 0x74 (.refused .index) []
      else if l ≠ [] then answers (exec (.keyQuery tag (w :: l)) s) s.taken tag 0x74 (.refused .length) []
      else answers (exec (.keyQuery tag (w :: l)) s) s.taken tag 0x74 .done (keyQueryPayload s.key slot)

/-- Programming, word by word: the word in hand ends marked, with the bits asked for but those that stay clear,
and the next word or the verify follows (R116, R124); the verify ends in LOCKED with DONE where every comparison
holds, or begins the void word (R125); the void word's end leaves the slot DAMAGED with FAILED, PROGRAM and the
number of words that failed. Once a RESTART has been accepted, the word in hand runs to its end and no further word is
programmed: the slot stays LOCKING, the reply is FAILED, ABORTED; a void word runs to its end as before; and the RESTART
reply follows where no other work is owed a reply (R127, R142). The operand for the bits that stay clear, a reply of the
key unit that waits behind another, and the moment of the ABORTED reply, at that word's end, are the model's (log 30,
log 24, log 18). -/
def Obligations.KeyProgrammingAdvances : Prop :=
  ∀ (tag : Byte) (slot : Nat) (f : KeyFields) (s : State), s.powered = true → slot < 24 → s.key.records.length = 24 →
    s.key.record slot = ⟨.locking, some f⟩ → f.ok = true → s.eng.holdKeyLock = some tag →
    let word (i : Nat) (stuck : Word) : KeyUnit := s.key.program slot (f.place i) (f.asked s.key i) stuck
    let void (stuck : Word) : KeyUnit :=
      let k := s.key.program slot 259 0x5A5AC3C3 stuck
      { k.setRecord slot ⟨.damaged, k.headerFields slot⟩ with bound := none, received := 0, buffer := [], prog := none }
    (s.eng.restarting = false → s.eng.holdRestart = none →
      (∀ (i : Nat) (stuck : Word), s.key.prog = some ⟨slot, .word i⟩ →
        exec (.keyWordProgrammed stuck) s =
          .next { s with key := { word i stuck with
            prog := some ⟨slot, if i + 1 = f.length / 4 + 3 then .verify else .word (i + 1)⟩ } }) ∧
      (s.key.prog = some ⟨slot, .verify⟩ →
        (s.key.verifyFailures slot f = 0 →
          posts (exec .keyVerifyEnd s)
            { s with
              key := { s.key.setRecord slot ⟨.locked, some f⟩ with
                bound := none, received := 0, buffer := [], prog := none }
              eng.holdKeyLock := none }
            .key tag 0x72 .done [put slot 31 24 ||| 0x30000]) ∧
        (s.key.verifyFailures slot f ≠ 0 →
          exec .keyVerifyEnd s =
            .next { s with key.prog := some ⟨slot, .void (s.key.verifyFailures slot f)⟩ })) ∧
      (∀ (n : Nat) (stuck : Word), s.key.prog = some ⟨slot, .void n⟩ →
        posts (exec (.keyWordProgrammed stuck) s)
          { s with key := void stuck, eng.holdKeyLock := none }
          .key tag 0x72 (.failed .program) [put slot 31 24 ||| 0x40000 ||| put n 8 0])) ∧
    ∀ (r : Byte) (stuck : Word) (k : KeyUnit) (reason : Reason) (w : Word), s.eng.restarting = true →
      s.eng.holdRestart = some r → s.eng.holdActivate = none → s.eng.holdCommit = none → s.ret.waiting = [] →
      s.ret.later = [] →
      (∃ i, s.key.prog = some ⟨slot, .word i⟩ ∧ k = { word i stuck with prog := none } ∧ reason = .aborted ∧
          w = put slot 31 24 ||| 0x20000) ∨
        (∃ n, s.key.prog = some ⟨slot, .void n⟩ ∧ k = void stuck ∧ reason = .program ∧
          w = put slot 31 24 ||| 0x40000 ||| put n 8 0) →
      ∃ t, exec (.keyWordProgrammed stuck) s = .next t ∧
        t = { s with key := k, ret := t.ret,
                     eng := { s.eng with holdKeyLock := none, holdRestart := t.eng.holdRestart } } ∧
        (s.ret.queue.length < 64 → t.eng.holdRestart = none ∧
          t.outbox = s.outbox ++ [⟨tag, 0x72, .failed reason, t.summary, [w]⟩, ⟨r, 0x03, .done, t.summary, []⟩]) ∧
        (64 ≤ s.ret.queue.length → t.eng.holdRestart = some r ∧
          t.outbox = s.outbox ++ [⟨tag, 0x72, .failed reason, t.summary, [w]⟩])

/-- "The key unit puts a slot into LOCKED or DAMAGED only when its array area already scans as that state" (R113):
the record that a verify or a void word leaves is the one the start-up scan takes from the array (R125, R128),
where KEY LOCK has tested the staged key's CRC (R120). -/
def Obligations.ProgrammedSlotScansAlike : Prop :=
  ∀ (slot : Nat) (f : KeyFields) (s t : State), s.powered = true → slot < 24 → s.key.records.length = 24 →
    s.canonical = true → s.key.record slot = ⟨.locking, some f⟩ → f.ok = true →
    (s.key.prog = some ⟨slot, .verify⟩ → s.key.verifyFailures slot f = 0 → crc32 (s.key.staged f.length) = f.check →
      exec .keyVerifyEnd s = .next t → t.key.record slot = ⟨.locked, some f⟩ ∧
        t.key.classify slot = t.key.record slot) ∧
    (∀ (n : Nat) (stuck : Word), s.key.prog = some ⟨slot, .void n⟩ → (s.key.areaWord slot 0).mark = true →
      exec (.keyWordProgrammed stuck) s = .next t → (t.key.record slot).state = .damaged ∧
        t.key.classify slot = t.key.record slot)

/-- KEY_ARRAY_STORAGE_FAULT sets one bit of one unprogrammed word that stands outside the header, is not being
programmed, and is not the void word of a LOCKED slot; no other word changes, and on those it changes nothing
(R113, R116, R125; log 27). -/
def Obligations.KeyArrayFault : Prop :=
  ∀ (slot w i : Nat) (s : State), slot < 24 → w < 260 → i < 32 → s.canonical = true →
    (w < 2 ∨ (s.key.areaWord slot w).mark = true ∨ s.key.inHand slot w = true ∨
        (w = 259 ∧ (s.key.record slot).state = .locked) →
      exec (.keyArrayStorageFault slot w i) s = .next s) ∧
    (2 ≤ w → (s.key.areaWord slot w).mark = false → s.key.inHand slot w = false →
      (w = 259 → (s.key.record slot).state ≠ .locked) →
      ∃ t, exec (.keyArrayStorageFault slot w i) s = .next t ∧
        t.key.areaWord slot w = ⟨(s.key.areaWord slot w).bits ||| (1#32 <<< i), false⟩ ∧
        (∀ a x, x < 260 → a ≠ slot ∨ x ≠ w → t.key.areaWord a x = s.key.areaWord a x) ∧
        t = { s with key.array := t.key.array })

/-! ### Lifecycle, commit and start-up (Chapter 8) -/

/-- COMMIT in FACTORY with every test of Table 43 passed clears commit-failed, becomes COMMITTING and begins the
erase of the image's sectors, with no reply yet (R134, R135); a payload of other than one word, a missing record,
selection or class, a commit in progress, a key in flight or a pending ACTIVATE refuses it by its reason, in that order,
in FACTORY and in COMMITTING. When a packet is taken, and the profile's index and marks in the KEYS_MISSING word, are the
model's (log 2, log 23). -/
def Obligations.CommitTaken : Prop :=
  ∀ (tag : Byte) (l : List Word) (s : State), s.canTake ⟨tag, 0x80, l⟩ = true →
    s.life.lifecycle = .factory ∨ s.life.lifecycle = .committing → s.eng.hold = none →
    let refusedWith (r : Reason) : Prop := answers (exec (.commit tag l) s) s.taken tag 0x80 (.refused r) []
    (l.length ≠ 1 → refusedWith .length) ∧
    (l.length = 1 → s.store.geometry s.store.active = none → refusedWith .geometry) ∧
    ∀ g, l.length = 1 → s.store.geometry s.store.active = some g →
      (s.region.selectedEntry = none → refusedWith .noRegion) ∧
      ∀ e, s.region.selectedEntry = some e →
        (e.required &&& ~~~s.key.lockedClasses ≠ 0 →
          answers (exec (.commit tag l) s) s.taken tag 0x80 (.refused .keysMissing)
            [profileStatus s.region s.key.lockedClasses (s.region.selected.getD 0)]) ∧
        (e.required &&& ~~~s.key.lockedClasses = 0 →
          (s.life.lifecycle = .committing ∨ s.key.inFlight = true ∨ s.store.activatePending = true →
            refusedWith .busy) ∧
          (s.life.lifecycle = .factory → s.key.inFlight = false → s.store.activatePending = false →
            exec (.commit tag l) s =
              .next { s.taken with
                eng.holdCommit := some tag
                life := { s.life with
                  lifecycle := .committing
                  commitFailed := false
                  commit := some { bank := s.store.active, n := g.count, phase := .erase, taken := 0, stop := none,
                                   ops := (List.range (((14 + g.count) * 4 + 4095) / 4096)).map .erase,
                                   page := [], crc := 0, crcEnded := false } } }))

/-- COMMIT ABORT of a commit that has not stopped marks the abort, lets the operation in progress run and then
erases sector 0, and waits for the COMMIT reply; of one that has stopped it only waits (R137, R138). REOPEN in
COMMISSIONED makes the lifecycle FACTORY and nothing else (R141). RESTART takes nothing more (R142): a pending ACTIVATE
is cancelled and a verify stops, each FAILED with ABORTED (R71, R127), and its own DONE follows once these are in the
reply queue; a word being programmed runs on, and a commit stops as for an abort (R127, R139). A payload of other than
one word is refused with LENGTH. The model's: the empty payload of the ACTIVATE's reply (log 38), the order of the two
replies (log 41), a reply behind another of its block (log 24), that RESTART's does not wait for replies offered before it
(log 25), that a word in hand delays the KEY LOCK's (log 18), and when a packet is taken (log 2). -/
def Obligations.LifecycleCommandsTaken : Prop :=
  ∀ (tag : Byte) (l : List Word) (s : State),
    (s.canTake ⟨tag, 0x81, l⟩ = true → s.life.lifecycle = .committing →
      (l.length ≠ 1 → answers (exec (.commitAbort tag l) s) s.taken tag 0x81 (.refused .length) []) ∧
      ∀ c, l.length = 1 → s.life.commit = some c →
        exec (.commitAbort tag l) s =
          .next { s.taken with
            eng.inHand := some (.abort tag)
            life.commit := some (if c.stop.isSome then c
              else { c with stop := some (.abort false), ops := c.ops.take 1 ++ [.erase 0] }) }) ∧
    (s.canTake ⟨tag, 0x82, l⟩ = true → s.life.lifecycle = .commissioned → s.eng.hold = none →
      (l.length ≠ 1 → answers (exec (.reopen tag l) s) s.taken tag 0x82 (.refused .length) []) ∧
      (l.length = 1 →
        answers (exec (.reopen tag l) s) { s.taken with life.lifecycle := .factory } tag 0x82 .done [])) ∧
    (s.canTake ⟨tag, 0x03, l⟩ = true → s.life.lifecycle ≠ .starting →
      (l.length ≠ 1 → answers (exec (.restart tag l) s) s.taken tag 0x03 (.refused .length) []) ∧
      (l.length = 1 →
        let accepted : State := { s.taken with eng := { s.taken.eng with restarting := true, holdRestart := some tag } }
        (s.eng.holdKeyLock = none → s.eng.holdCommit = none → s.key.prog = none → s.life.commit = none →
          s.store.activatePending = false → s.eng.holdActivate = none → (∀ w ∈ s.ret.waiting, w.owed = false) →
          (∀ x ∈ s.ret.later, x.owed = false) →
          posts (exec (.restart tag l) s) { accepted with eng := { accepted.eng with holdRestart := none } } .life tag
            0x03 .done []) ∧
        (∀ act key : List Reply, s.life.commit = none → s.eng.holdCommit = none → s.ret.waiting = [] →
          s.ret.later = [] →
          let sum := { s.summary with activatePending := false }
          (act = [] ∧ s.store.activatePending = false ∧ s.eng.holdActivate = none ∨
            ∃ a, act = [⟨a, 0x28, .failed .aborted, sum, []⟩] ∧ s.store.activatePending = true ∧
              s.eng.holdActivate = some a) →
          (key = [] ∧ s.key.prog = none ∧ s.eng.holdKeyLock = none ∨
            ∃ k slot, key = [⟨k, 0x72, .failed .aborted, sum, [put slot 31 24 ||| 0x20000]⟩] ∧
              s.key.prog = some ⟨slot, .verify⟩ ∧ s.eng.holdKeyLock = some k) →
          ∃ t, exec (.restart tag l) s = .next t ∧
            t = { accepted with
              eng := { accepted.eng with holdActivate := none, holdKeyLock := none, holdRestart := t.eng.holdRestart }
              store.activatePending := false
              key.prog := none
              ret := t.ret } ∧
            (act ++ key = [] ∨ s.ret.queue.length + (act ++ key).length ≤ 64 → t.eng.holdRestart = none ∧
              t.outbox = s.outbox ++ act ++ key ++ [⟨tag, 0x03, .done, sum, []⟩]) ∧
            (act ++ key ≠ [] → 64 < s.ret.queue.length + (act ++ key).length → t.eng.holdRestart = some tag ∧
              t.outbox = s.outbox ++ act ++ key)) ∧
        (∀ slot phase, s.key.prog = some ⟨slot, phase⟩ → phase ≠ .verify → s.eng.holdKeyLock.isSome = true →
          s.life.commit = none →
          (s.store.activatePending = false → exec (.restart tag l) s = .next accepted) ∧
          ∀ a, s.store.activatePending = true → s.eng.holdActivate = some a →
            posts (exec (.restart tag l) s)
              { accepted with eng := { accepted.eng with holdActivate := none }, store.activatePending := false } .store a
              0x28 (.failed .aborted) []) ∧
        (∀ c, s.life.commit = some c → s.eng.holdCommit.isSome = true → s.key.prog = none →
          s.store.activatePending = false →
          exec (.restart tag l) s =
            .next { accepted with
              life.commit := some (if c.stop.isSome then c
                else { c with stop := some (.abort true), ops := c.ops.take 1 ++ [.erase 0] }) })))

/-- The commit's steps. The reader takes its next word where neither a fetch nor a scrub claims the port, as a checked
read; an uncorrectable one stops the commit (R73, R137), any other is fed to the CRC and placed in the image, which with
the last word is the whole of Table 42 (R133, R135). A flash operation leaves what it was asked, and the next begins; one
that reports an error or reads back different stops the commit at its address; the last erase begins WORDS with the header
of the settings, the last page makes the lifecycle COMMISSIONED, with DONE (R135, R136). A stopped commit erases sector
0 last, and then is FAILED, FLASH or ECC, with commit-failed set, or ABORTED, by COMMIT ABORT in FACTORY, by RESTART
still COMMITTING; the waiting command's reply follows (R137 to R139, R142), that of a COMMIT ABORT once the COMMIT reply has
been posted (R138). The model's: a step not granted (log 1), a word taken during a page operation (log 5), HEADER as no
step (log 19), the operands of FLASH_OPERATION_END, after a failed erase too (log 20, log 43), the last page beyond the
image (log 44), a reply behind another of its block (log 24). -/
def Obligations.CommitSteps : Prop :=
  ∀ (s : State) (c : Commit), s.powered = true → s.canonical = true → s.life.commit = some c →
    s.life.lifecycle = .committing →
    let running (f : List Host.Cell) (c' : Commit) : State := { s with life := { s.life with flash := f, commit := some c' } }
    (c.phase = .words → c.stop = none → c.taken < c.n →
      (s.buf.fetch.isSome = true ∨ s.store.scrub ≠ [] → exec .commitReaderWord s = .next s) ∧
      (s.buf.fetch = none → s.store.scrub = [] →
        let u := noteRead c.bank c.taken s
        let w := s.store.readAt c.bank c.taken
        let crc := crc32From c.crc (wordBytes w)
        (s.store.findingAt c.bank c.taken = .uncorrectable →
          exec .commitReaderWord s = .next { u with life.commit := some { c with
            stop := some (.ecc c.bank c.taken), ops := c.ops.take 1 ++ [.erase 0] } }) ∧
        (s.store.findingAt c.bank c.taken ≠ .uncorrectable →
          ∃ c', exec .commitReaderWord s = .next { u with life.commit := some c' } ∧
            c' = { c with taken := c.taken + 1, crc := crc, phase := c'.phase, ops := c'.ops, page := c'.page } ∧
            c.ops <+: c'.ops ∧ c'.phase = (if c.taken + 1 < c.n then .words else .trailer) ∧
            (c.page.length = (12 + c.taken) % 64 →
              (c.taken + 1 < c.n → c'.page.length = (12 + c'.taken) % 64 ∧
                c'.imageAhead s.life.flash = c.imageAhead s.life.flash ++ [w]) ∧
              (c.taken + 1 = c.n → c'.page = [] ∧
                flashWords (flashAhead c'.ops s.life.flash) 0 (14 + c.n) =
                  c.imageAhead s.life.flash ++ [w, crc, ~~~crc]))))) ∧
    (∀ (op : FlashOp) (rest : List FlashOp) (error : Bool) (left : List Word), c.ops = op :: rest →
      let f := op.apply error left s.life.flash
      let d : Commit := { c with crcEnded := c.crcEnded || c.isCrcPage op }
      (c.isCrcPage op = true ↔ c.phase = .trailer ∧ ∃ ws, op = .program ((12 + c.n) / 64) ws) ∧
      (error = false → left = [] → flashAhead rest f = flashAhead c.ops s.life.flash) ∧
      (c.stop = none →
        (op.failed error f = true → exec (.flashOperationEnd error left) s =
          .next (running f { d with stop := some (.flash op.address), ops := [.erase 0] })) ∧
        (op.failed error f = false →
          error = false ∧
          (∀ sector, op = .erase sector → ∀ m, flashWord f m =
            if 1024 * sector ≤ m ∧ m < 1024 * sector + 1024 then 0xFFFFFFFF else flashWord s.life.flash m) ∧
          (∀ page ws, op = .program page ws → ws.length ≤ 64 → flashWords f (64 * page) ws.length = ws ∧
            ∀ m, m < 64 * page ∨ 64 * page + 64 ≤ m → flashWord f m = flashWord s.life.flash m) ∧
          (rest ≠ [] ∨ c.phase = .words → exec (.flashOperationEnd error left) s =
            .next (running f { d with ops := rest })) ∧
          (∀ g i p, rest = [] → c.phase = .erase → s.store.geometry c.bank = some g → s.region.selected = some i →
            s.region.entry i = some p →
            let header := headerWords g i p s.pipe.pending
            exec (.flashOperationEnd error left) s =
              .next (running f { d with phase := .words, ops := [], page := header, crc := crc32 (wordsBytes header) })) ∧
          (∀ tag, rest = [] → c.phase = .trailer → s.eng.holdCommit = some tag → s.eng.inHand = none →
            posts (exec (.flashOperationEnd error left) s)
              { s with
                eng.holdCommit := none
                pipe.pending.mode := .full
                life := { s.life with flash := f, lifecycle := .commissioned, commit := none } }
              .life tag 0x80 .done [put c.n 19 0, c.crc]))) ∧
      (∀ why, c.stop = some why → rest ≠ [] →
        exec (.flashOperationEnd error left) s = .next (running f { d with ops := rest })) ∧
      (∀ (why : CommitStop) (tag : Byte), c.stop = some why → rest = [] → s.eng.holdCommit = some tag →
        let ended (lifecycle : Lifecycle) (failed : Bool) : State := { s with
          eng.holdCommit := none
          life := { s.life with flash := f, lifecycle := lifecycle, commit := none, commitFailed := failed } }
        let reply (r : Reason) (u : State) (second : Word) : Reply :=
          ⟨tag, 0x80, .failed r, u.summary, [commitFailedWord c, second]⟩
        (∀ (r : Reason) (u : State) (second : Word),
          (∃ a, why = .flash a ∧ r = .flash ∧ u = ended .factory true ∧ second = put a 21 0) ∨
            (∃ bank a, why = .ecc bank a ∧ r = .ecc ∧ u = ended .factory true ∧
              second = (if bank = .b then 0x80000000 else 0) ||| put a 19 0) ∨
            (why = .abort false ∧ r = .aborted ∧ u = ended .factory (s.life.commitFailed || error) ∧ second = 0) →
          (s.eng.inHand = none → s.eng.holdRestart = none →
            posts (exec (.flashOperationEnd error left) s) u .life tag 0x80 (.failed r) [commitFailedWord c, second]) ∧
          (∀ tag', s.eng.inHand = some (.abort tag') → s.eng.holdRestart = none → blockFree .life s = true →
            ∃ t, exec (.flashOperationEnd error left) s = .next t ∧
              t = { u with eng := { u.eng with inHand := none }, ret := t.ret } ∧
              t.outbox = s.outbox ++ [reply r u second, ⟨tag', 0x81, .done, u.summary, []⟩]) ∧
          (∀ tag', s.eng.inHand = some (.abort tag') → s.eng.holdRestart = none → blockFree .life s = false →
            posts (exec (.flashOperationEnd error left) s) u .life tag 0x80 (.failed r) [commitFailedWord c, second])) ∧
        (∀ (restart : Byte) (r : Reason) (u : State) (second : Word),
          (∃ a, why = .flash a ∧ r = .flash ∧ u = ended .factory true ∧ second = put a 21 0) ∨
            (∃ bank a, why = .ecc bank a ∧ r = .ecc ∧ u = ended .factory true ∧
              second = (if bank = .b then 0x80000000 else 0) ||| put a 19 0) ∨
            (why = .abort true ∧ r = .aborted ∧ u = ended .committing (s.life.commitFailed || error) ∧ second = 0) →
          s.eng.inHand = none → s.eng.holdRestart = some restart → s.eng.restarting = true →
          s.eng.holdActivate = none → s.eng.holdKeyLock = none → s.ret.waiting = [] → s.ret.later = [] →
          ∃ t, exec (.flashOperationEnd error left) s = .next t ∧
            t = { u with eng := { u.eng with holdRestart := t.eng.holdRestart }, ret := t.ret } ∧
            (s.ret.queue.length < 64 → t.eng.holdRestart = none ∧
              t.outbox = s.outbox ++ [reply r u second, ⟨restart, 0x03, .done, u.summary, []⟩]) ∧
            (64 ≤ s.ret.queue.length → t.eng.holdRestart = some restart ∧
              t.outbox = s.outbox ++ [reply r u second]))))

/-- The start-up load reads the image back: from a flash that holds the image of a valid geometry, an entry within
range and a bank's words, with the required classes locked, START_UP_LOAD_END ends in COMMISSIONED with outcome
VALID; bank A holds the words, their spare bits 0, zeros above them, and the geometry; bank B's words are zero and its
record is unchanged; the entry is valid and selected; and the pending context holds the image's settings (R144, R145).
The end is the same state where LOADER_WORD_WRITE steps have been placed before it. That START_UP_LOAD_END makes the writes
still to come, and that the CRC is over words as the flash holds them, spare bits too, are the model's (log 6, log 38). -/
def Obligations.ImageLoadsBack : Prop :=
  ∀ (g : Geometry) (i : Nat) (e : Profile) (c : PendingContext) (ws : List Word) (s : State), s.powered = true →
    s.canonical = true → s.life.lifecycle = .starting → s.life.startUp = .load .header → g.valid = true → i < 16 →
    e.inRange = true → e.required.getLsbD 0 = false → ws.length = g.count → s.region.entries.length = 16 →
    (let image := headerWords g i e c ++ ws
     flashWords s.life.flash 0 (14 + g.count) =
       image ++ [crc32 (wordsBytes image), ~~~(crc32 (wordsBytes image))]) →
    e.required &&& ~~~s.key.lockedClasses = 0 →
    ∃ t, exec (.startUpLoadEnd false) s = .next t ∧ t.life.lifecycle = .commissioned ∧ t.life.outcome = .valid ∧
      t.store.geomA = some g ∧ t.store.active = s.store.active ∧ t.store.geomB = s.store.geomB ∧
      (∀ a w, ws[a]? = some w → t.store.wordAt .a a = ⟨w &&& 0x3FFFFFFF, 0⟩) ∧
      (∀ a, g.count ≤ a → a < 786432 → t.store.wordAt .a a = ⟨0, 0⟩) ∧
      (∀ a, a < 786432 → t.store.wordAt .b a = ⟨0, 0⟩) ∧
      t.region.entry i = some e ∧ t.region.selected = some i ∧ (∀ j, j ≠ i → t.region.entry j = s.region.entry j) ∧
      t.pipe.pending = ⟨.full, c.din, c.dout, c.rounding, c.masks, e.ceiling, e.gains, .a, some g⟩ ∧
      t.pipe.live = s.pipe.live ∧ t.eng = s.eng ∧ t.ret = s.ret ∧ t.key = s.key ∧ t.mon = s.mon ∧
      t.life.flash = s.life.flash ∧
      ∀ k u, runAll (List.replicate k (.loaderWordWrite false)) s = .next u → exec (.startUpLoadEnd false) u = .next t

/-- The other steps of start-up. The scan classifies the 24 slots and the load begins (R128). The load's end is FACTORY,
both banks zero, Table 11's pending context and the outcome of the first test that fails (R144, R146): a failing flash
read FLASH, from the header on or at the image's words; no format tag BLANK; another lifecycle, a header field out of its
range or a trailer that does not match INVALID; a required class that is not locked KEYS. A loader write, where neither
a fetch nor a scrub claims the port, writes the next image word or the next zero, bank A then bank B, the first after the
header's tests and the last image word after the trailer's (R73, R144 to R146), and the load's end is the same with it
placed. The order of the zeros, the bulk writes of START_UP_LOAD_END, and a write not granted, are the model's (log 45,
log 6, log 1). -/
def Obligations.StartUpSteps : Prop :=
  ∀ s : State, s.powered = true → s.canonical = true → s.life.lifecycle = .starting →
    let f := s.life.flash
    let factoryWith (fails : Bool) (o : StartOutcome) : Prop :=
      ∃ t, exec (.startUpLoadEnd fails) s = .next t ∧
        t = { s with
          store.bankA := t.store.bankA
          store.bankB := t.store.bankB
          pipe.pending := .start
          life := { s.life with lifecycle := .factory, startUp := .idle, outcome := o } } ∧
        ∀ bank a, a < 786432 → t.store.wordAt bank a = ⟨0, 0⟩
    (s.life.startUp = .scan →
      exec .keyArrayScanEnd s =
        .next { s with
          key.records := (List.range 24).map s.key.classify
          life.startUp := .load .header }) ∧
    (s.life.startUp = .load .header → factoryWith true .flash) ∧
    (∀ h k crc, s.life.startUp = .load (.image h k crc) → factoryWith true .flash) ∧
    (s.life.startUp = .load .header →
      let g := geometryOf (flashWords f 2 5)
      let n := g.count
      let image := flashWords f 0 (12 + n)
      (flashWord f 0 ≠ 0x7140C1A5 → factoryWith false .blank) ∧
      (flashWord f 0 = 0x7140C1A5 →
        (bits (flashWord f 1) 1 0 ≠ 3 ∨ g.valid = false ∨ bits (flashWord f 11) 19 0 ≠ n ∨
            16 ≤ bits (flashWord f 7) 31 24 ∨ 16383 < bits (flashWord f 8) 31 16 ∨ 4096 < bits (flashWord f 8) 15 0 ∨
            4096 < bits (flashWord f 9) 31 16 ∨ 4096 < bits (flashWord f 9) 15 0 ∨
            depthOf (bits (flashWord f 10) 23 16) = none ∨ depthOf (bits (flashWord f 10) 15 8) = none ∨
            roundingOf (bits (flashWord f 10) 7 4) = none → factoryWith false .invalid) ∧
        (∀ h, headerOf (flashWords f 0 12) = some h → bits (flashWord f 1) 1 0 = 3 →
          (flashWord f (12 + n) ≠ crc32 (wordsBytes image) ∨ flashWord f (13 + n) ≠ ~~~(crc32 (wordsBytes image)) →
            factoryWith false .invalid) ∧
          (flashWord f (12 + n) = crc32 (wordsBytes image) → flashWord f (13 + n) = ~~~(crc32 (wordsBytes image)) →
            h.profile.required &&& ~~~s.key.lockedClasses ≠ 0 → factoryWith false .keys)))) ∧
    (s.buf.fetch.isSome = true ∨ s.store.scrub ≠ [] → exec (.loaderWordWrite false) s = .next s) ∧
    (∀ u, exec (.loaderWordWrite false) s = .next u → exec (.startUpLoadEnd false) u = exec (.startUpLoadEnd false) s) ∧
    (s.buf.fetch = none → s.store.scrub = [] →
      let writes (bank : Bank) (a : Nat) (w : Word) (ph : LoadPhase) : Prop :=
        exec (.loaderWordWrite false) s =
          .next { s with store := s.store.writeWord bank a w, life.startUp := .load ph }
      (s.life.startUp = .load .header →
        (flashWord f 0 ≠ 0x7140C1A5 → writes .a 0 0 (.zero .blank none 1)) ∧
        (flashWord f 0 = 0x7140C1A5 → bits (flashWord f 1) 1 0 ≠ 3 ∨ headerOf (flashWords f 0 12) = none →
          writes .a 0 0 (.zero .invalid none 1)) ∧
        (∀ h, flashWord f 0 = 0x7140C1A5 → bits (flashWord f 1) 1 0 = 3 → headerOf (flashWords f 0 12) = some h →
          writes .a 0 (flashWord f 12)
            (.image h 1 (crc32From (crc32 (wordsBytes (flashWords f 0 12))) (wordBytes (flashWord f 12)))))) ∧
      (∀ (h : ImageHeader) (crc : Word), s.life.startUp = .load (.image h h.n crc) →
        let matched : Prop := flashWord f (12 + h.n) = crc ∧ flashWord f (13 + h.n) = ~~~crc
        let locked : Prop := h.profile.required &&& ~~~s.key.lockedClasses = 0
        (¬ matched → writes .a 0 0 (.zero .invalid none 1)) ∧
        (matched → ¬ locked → writes .a 0 0 (.zero .keys none 1)) ∧
        (matched → locked → h.n < 786432 → writes .a h.n 0 (.zero .valid (some h) (h.n + 1))) ∧
        (matched → locked → h.n = 786432 → writes .b 0 0 (.zero .valid (some h) (h.n + 1)))) ∧
      (∀ (h : ImageHeader) (k : Nat) (crc : Word), s.life.startUp = .load (.image h k crc) → k < h.n →
        let w := flashWord f (12 + k)
        exec (.loaderWordWrite false) s =
          .next { s with
            store := s.store.writeWord .a k w
            life.startUp := .load (.image h (k + 1) (crc32From crc (wordBytes w))) }) ∧
      (s.life.startUp = .load .header ∨ (∃ h k crc, s.life.startUp = .load (.image h k crc)) →
        exec (.loaderWordWrite true) s =
          .next { s with store := s.store.writeWord .a 0 0, life.startUp := .load (.zero .flash none 1) } ∧
        ∀ fails u, exec (.loaderWordWrite true) s = .next u →
          exec (.startUpLoadEnd fails) u = exec (.startUpLoadEnd true) s) ∧
      (∀ (fails : Bool) (o : StartOutcome) (h : Option ImageHeader) (n : Nat), s.life.startUp = .load (.zero o h n) →
        (n < 786432 →
          exec (.loaderWordWrite fails) s =
            .next { s with store := s.store.writeWord .a n 0, life.startUp := .load (.zero o h (n + 1)) }) ∧
        (786432 ≤ n → n < 1572864 →
          exec (.loaderWordWrite fails) s =
            .next { s with store := s.store.writeWord .b (n - 786432) 0, life.startUp := .load (.zero o h (n + 1)) })))

/-- Power: POWER_ON begins start-up, with every block at its start-up values; the bank words, the key array and,
where no operation was cut off, the flash stand (R116, R143). POWER_REMOVAL leaves a part without power, in which
no later event but POWER_ON has effect, and KEY_ARRAY_STORAGE_FAULT (log 1, log 27). During a commit it stops the
commit with no reply; until the trailer's programming has ended "the trailer does not hold a CRC and its complement" where
a page is cut off, and the flash holds no image that start-up takes; once it has, read back or not, the page of the CRC is
whole, and an erase leaves what it had not yet erased (R139). A key word cut off is left blank, partly programmed or
complete, and no other word changes (R116). POWER_ON of a part that has power, what the banks hold before the loader
writes, the instants, the panel, the service rows, and what a cut operation or word leaves are the model's (log 22,
log 13, log 9, log 33, log 40, log 20, log 21, log 30). -/
def Obligations.PowerSteps : Prop :=
  (∀ (now : Nat) (s : State),
    ∃ t, exec (.powerOn now) s = .next t ∧ t.powered = true ∧ t.life.lifecycle = .starting ∧ t.life.outcome = .pending ∧
      t.life.commit = none ∧ t.life.commitFailed = false ∧ t.life.startUp = .scan ∧ t.eng = .start ∧ t.ret = .start ∧
      t.mon = .start ∧ t.region = .start ∧ t.rx = .start ∧ t.pipe = .start ∧ t.buf = .start ∧
      t.timing = .start now ∧ t.store = .start s.store.bankA s.store.bankB ∧ t.key.array = s.key.array ∧
      t.key.bound = none ∧ t.key.prog = none ∧
      (s.powered = false ∨ s.life.commit = none → t.life.flash = s.life.flash)) ∧
  (∀ (m : Bool) (w : Word) (l : List Word) (s : State), s.powered = true →
    (s.key.prog = none → s.life.commit = none → exec (.powerRemoval m w l) s = .next { s with powered := false }) ∧
    ∀ c, s.life.commit = some c → s.key.prog = none → s.canonical = true →
      ∃ t, exec (.powerRemoval m w l) s = .next t ∧
        t = { s with powered := false, life := { s.life with flash := t.life.flash, commit := none } } ∧
        let inCrcPage : Prop := c.phase = .trailer ∧ ∃ ws rest, c.ops = .program ((12 + c.n) / 64) ws :: rest
        let ended : Prop := c.crcEnded = true ∨ inCrcPage ∧ ∀ x ∈ l, x = 0
        (¬ ended →
          holdsImage t.life.flash = false ∧
          (∀ page ws rest, c.ops = .program page ws :: rest → trailerPaired t.life.flash c.n = false) ∧
          (c.ops = [] → holdsImage s.life.flash = false → t.life.flash = s.life.flash)) ∧
        (c.ops = [] → c.crcEnded = true → t.life.flash = s.life.flash) ∧
        (∀ page ws rest, c.ops = .program page ws :: rest → ended → (∀ x ∈ l, x = 0) →
          t.life.flash = (FlashOp.program page ws).apply false [] s.life.flash) ∧
        (∀ sector rest, c.ops = .erase sector :: rest → c.crcEnded = true → ∀ m, flashWord t.life.flash m =
          if 1024 * sector ≤ m ∧ m < 1024 * sector + 1024 then
            flashWord s.life.flash m ||| ~~~(l.getD (m - 1024 * sector) 0)
          else flashWord s.life.flash m)) ∧
  (∀ (m : Bool) (w : Word) (l : List Word) (slot : Nat) (phase : KeyPhase) (f : KeyFields) (s : State),
    s.powered = true → s.canonical = true → s.life.commit = none → s.key.prog = some ⟨slot, phase⟩ →
    s.key.record slot = ⟨.locking, some f⟩ → f.ok = true →
    let cut (at_ : Nat) (asked : Word) : Prop :=
      ∃ t, exec (.powerRemoval m w l) s = .next t ∧
        t = { s with powered := false, key := { s.key with array := t.key.array, prog := none } } ∧
        (m = false → t.key.array = s.key.array) ∧
        (m = true → t.key.areaWord slot at_ = ⟨(s.key.areaWord slot at_).bits ||| (asked &&& w), true⟩) ∧
        ∀ a x, x < 260 → a ≠ slot ∨ x ≠ at_ → t.key.areaWord a x = s.key.areaWord a x
    (∀ i, phase = .word i → i < f.length / 4 + 3 → cut (f.place i) (f.asked s.key i)) ∧
    (∀ n, phase = .void n → cut 259 0x5A5AC3C3) ∧
    (phase = .verify → exec (.powerRemoval m w l) s =
      .next { s with powered := false, key := { s.key with prog := none } })) ∧
  ∀ (c : Instr) (s : State), s.powered = false → c.wf = true → (∀ now, c ≠ .powerOn now) →
    (∀ a x i, c ≠ .keyArrayStorageFault a x i) → exec c s = .next s

/-- REPLY_TRANSMISSION_END: the reply leaves the queue, and the next transmission begins at once, with the credits
of that moment (R154, R163); the freed entry admits the waiting reply of the highest rank (R153), and once the last reply
owed has entered, the RESTART reply is posted (R142); the end of the RESTART reply's transmission begins start-up (R142,
R143). A COMMIT ABORT that waited for a COMMIT reply still to post completes with it (R138, R147). That the next
transmission begins before anything else, and the replies a block has still to post, are the model's (log 24, log 29). -/
def Obligations.TransmissionEnds : Prop :=
  ∀ (now credits : Nat) (r : Reply) (rest : List Reply) (s : State), s.powered = true → s.ret.lane = .sending credits →
    s.ret.queue = r :: rest →
    let free := 320 - s.eng.queue.length
    (r.isRestart = false → s.ret.waiting = [] → s.eng.holdRestart = none →
      exec (.replyTransmissionEnd now) s =
        .next { s with ret := ⟨rest, [], s.ret.later, if rest = [] then .idle else .sending free⟩ }) ∧
    (r.isRestart = false → s.ret.waiting ≠ [] → rest.length < 64 →
      ∃ l w others, s.ret.waiting = l ++ w :: others ∧ (∀ v ∈ l, v.poster ≠ w.poster) ∧
        (∀ v ∈ l ++ others, v.poster = .store → w.poster = .store) ∧
        (∀ v ∈ l ++ others, v.poster = .key → w.poster = .store ∨ w.poster = .key) ∧
        (∀ v ∈ l ++ others, v.poster = .life → w.poster ≠ .engine) ∧
        (s.eng.holdRestart = none → (∀ x ∈ s.ret.later, x.poster ≠ w.poster) →
          exec (.replyTransmissionEnd now) s =
            .next { s with ret := ⟨rest ++ [w.reply], l ++ others, s.ret.later, .sending free⟩ }) ∧
        (∀ a x b, s.eng.holdRestart = none → s.ret.later = a ++ x :: b → (∀ y ∈ a, y.poster ≠ w.poster) →
          x.poster = w.poster →
          let out := rest ++ [w.reply] ++ (l ++ others).map Waiter.reply ++
            [⟨x.tag, x.code, x.completion, s.summary, x.payload⟩]
          ∃ t, exec (.replyTransmissionEnd now) s = .next t ∧ t = { s with ret := t.ret, eng.inHand := t.eng.inHand } ∧
            t.ret.later = a ++ b ∧ t.ret.lane = .sending free ∧
            ((∀ tag, s.eng.inHand ≠ some (.abort tag)) ∨ w.poster ≠ .life →
              t.eng.inHand = s.eng.inHand ∧ t.outbox = out) ∧
            (∀ tag, s.eng.inHand = some (.abort tag) → w.poster = .life → s.eng.holdCommit = none →
              (∀ y ∈ b, y.poster ≠ .life) →
              t.eng.inHand = none ∧ t.outbox = out ++ [⟨tag, 0x81, .done, s.summary, []⟩])) ∧
        (∀ tag, s.eng.holdRestart = some tag → s.eng.holdActivate = none → s.eng.holdKeyLock = none →
          s.eng.holdCommit = none → s.ret.later = [] → s.ret.waiting = [w] →
          ∃ t, exec (.replyTransmissionEnd now) s = .next t ∧ t = { s with eng.holdRestart := none, ret := t.ret } ∧
            t.ret.lane = .sending free ∧ t.outbox = rest ++ [w.reply, ⟨tag, 0x03, .done, s.summary, []⟩])) ∧
    (r.code = 0x03 → r.completion = .done →
      exec (.replyTransmissionEnd now) s = .next (startUpBegin now s) ∧
        (startUpBegin now s).life.lifecycle = .starting ∧ (startUpBegin now s).ret = .start)

/-! ### Frames (Chapter 1, R156) -/

/-- INPUT_FRAME_START with nothing in progress and no ACTIVATE pending (R4, R11, R48, R56, R82, R156): the frame
number rises by 1, the period is measured where a previous start stands, the deadline is twice the last period
after this instant, the live context takes the pending context, the clipped window and the mode, counts and
signature begin afresh, and in a FULL frame the fetch of row 0 begins, with rows 1 and 2 listed. In FREE_RUN it
first ends the free-run frame with its report and returns to RUNNING, and measures no period (R8). In an input frame, or
where the last one's output has not ended, it first cuts that frame: the measured size becomes absent, and the report is
filed (R6, R24). The mode is the first entry of Table 7 whose condition holds (R12). Instants out of order, which empty
slot a row takes, and when the pixels held back by a cut frame are sent are the model's (log 9, log 39, log 7). -/
def Obligations.InputFrameStarts : Prop :=
  (∀ (now : Nat) (s : State), s.quiet = true → s.timing.free = false →
     let period := match s.rx.prevStart with
       | none => s.timing.lastPeriod
       | some before => now - before
     let mode := decideMode false (s.life.lifecycle == .starting) s.pipe.pending.mode s.pipe.pending.geometry s.rx.measured
     ∃ t, exec (.inputFrameStart now) s = .next t ∧
       t = { s with
         timing := { s.timing with
           frameNumber := s.timing.frameNumber + 1, lastPeriod := period, deadline := some (now + 2 * period),
           frame := .input }
         rx := { s.rx with frame := some newRxFrame, serviceRows := 0, prevStart := some now }
         pipe.live := liveFrom s.pipe.pending mode (applyWindow s.mon.window s.rx.measured)
         mon := { s.mon with counts := ⟨0, 0, 0, 0⟩, trapped := 0, acc := some ⟨0xFFFFFFFF, 0⟩ }
         buf := t.buf } ∧
       (mode ≠ .full → t.buf.slots = [none, none, none] ∧ t.buf.fetchList = [] ∧ t.buf.fetch = none) ∧
       (mode = .full →
         t.buf.slots = [some ⟨s.pipe.pending.bank, 0, 0, []⟩, none, none] ∧ t.buf.fetchList = [1, 2] ∧
           t.buf.fetch = some 0)) ∧
  (∀ (now : Nat) (s : State), s.quiet = true → s.timing.free = true → s.rx.prevStart = none →
     ∃ t, exec (.inputFrameStart now) s = .next t ∧
       t.mon.ring = pushReport s.mon.ring (frameReport none 0 s) ∧
       t.timing = { s.timing with
         free := false, frameNumber := s.timing.frameNumber + 1, deadline := some (now + 2 * s.timing.lastPeriod),
         frame := .input } ∧
       t.rx.frame = some newRxFrame ∧ t.rx.prevStart = some now ∧ t.eng = s.eng ∧ t.ret = s.ret ∧ t.store = s.store) ∧
  (∀ (now rows : Nat) (size : Size) (s : State), s.powered = true → s.timing.free = false →
     s.store.activatePending = false →
     (s.rx.frame = none ∧ s.timing.owedEnd = some ⟨size, rows⟩) ∨
       (∃ f, s.rx.frame = some f ∧ f.row < 65535 ∧ rows = s.rx.serviceRows ∧
         size = ⟨f.firstRow.getD f.pixels, f.row + 1⟩) →
     ∃ t r, exec (.inputFrameStart now) s = .next t ∧ t.rx.measured = none ∧ t.timing.raster = s.timing.raster ∧
       t.timing.frameNumber = s.timing.frameNumber + 1 ∧ t.timing.owedEnd = none ∧ t.rx.frame = some newRxFrame ∧
       t.rx.prevStart = some now ∧ t.pipe.input = [] ∧
       t.mon.ring = pushReport s.mon.ring r ∧ r.frame = s.timing.frameNumber ∧ r.mode = s.pipe.live.mode ∧
       r.measured = some size ∧ r.serviceRows = rows ∧
       t.pipe.live = liveFrom s.pipe.pending
         (decideMode false (s.life.lifecycle == .starting) s.pipe.pending.mode s.pipe.pending.geometry none)
         (applyWindow s.mon.window none)) ∧
  ∀ (free starting : Bool) (mode : PipeMode) (g : Option Geometry) (z : Option Size),
    let m := decideMode free starting mode g z
    (m = .freeRun ↔ free = true) ∧
    (m = .bypass ↔ free = false ∧ (starting = true ∨ mode = .bypass ∨ g = none)) ∧
    (m = .full ↔ free = false ∧ starting = false ∧ mode = .full ∧
      ∃ x y, g = some x ∧ z = some y ∧ y.width = x.w ∧ y.height = x.h)

/-- "At the first output frame start after an ACTIVATE has been accepted, whether of an input frame or of a
free-run frame", by INPUT_FRAME_START, DEADLINE_EXPIRY or FREE_RUN_FRAME_END, the roles are exchanged, the pending and
the live bank and geometry are the new ACTIVE bank's, the words and records of both banks stay, and the deferred reply
DONE names that bank and the frame that begins (R15, R70); where a reply of the store waits, it is posted after that one
(R153; log 24). -/
def Obligations.FrameStartCompletesActivate : Prop :=
  ∀ (c : Instr) (now : Nat) (tag : Byte) (s : State), { s with store.activatePending := false }.quiet = true →
    s.store.activatePending = true → s.eng.holdActivate = some tag →
    (s.timing.free = false ∧ (c = .inputFrameStart now ∨ c = .deadlineExpiry ∧ s.timing.deadline.isSome = true)) ∨
      (s.timing.free = true ∧ (c = .inputFrameStart now ∨ c = .freeRunFrameEnd)) →
    let words : List Word := [if s.store.load = .a then 0 else 1, s.timing.frameNumber + 1]
    ∃ t, exec c s = .next t ∧
      t.store = { s.store with active := s.store.load, activatePending := false } ∧
      t.pipe.pending = { s.pipe.pending with bank := s.store.load, geometry := s.store.geometry s.store.load } ∧
      t.pipe.live.bank = s.store.load ∧ t.pipe.live.geometry = s.store.geometry s.store.load ∧
      t.timing.frameNumber = s.timing.frameNumber + 1 ∧
      t.eng = { s.eng with holdActivate := none } ∧
      (blockFree .store s = true → t.ret.later = s.ret.later ∧
        t.outbox = s.outbox ++ [⟨tag, 0x28, .done, { s.summary with activatePending := false }, words⟩]) ∧
      (blockFree .store s = false →
        t.ret = { s.ret with later := s.ret.later ++ [⟨.store, s.eng.restarting, tag, 0x28, .done, words⟩] }) ∧
      t.region = s.region ∧ t.key = s.key ∧ t.life = s.life

/-- The ends of input frames (R5, R6, R48, R59, R156): a frame end after a row end sets the measured size and the free-run
raster to row 0's length and the number of rows; a frame end in a row, and a loss of the link, cut the frame: the
measurement becomes absent, the raster stays, and the size is the one received. Where no pixel waits the output ends and
a report of that size is filed, after which the counts are not kept; else the output's end is owed with that size (R5,
R22). With no frame in progress nothing changes. ROW_END completes the row: after row 0 its length is the first-row
length; the service region stays open while the row was a service line and is one of rows 0 to 10 (R158). A line left in
HEADER or PACKETS by a row end or a cut is cut short, with CHECK and the row (R162). That counts not kept read 0 is the
model's (log 42). -/
def Obligations.RowsAndFramesEnd : Prop :=
  (∀ s : State, s.powered = true →
     (s.rx.frame = none → exec .linkLoss s = .next s ∧ exec .inputFrameEnd s = .next s ∧ exec .rowEnd s = .next s) ∧
     ∀ f : RxFrame, s.rx.frame = some f → f.row < 65535 →
       let ended (z : Size) (u : State) : State :=
         if s.pipe.input = [] then { u with
           timing := { u.timing with frame := .none, owedEnd := none }
           mon := { s.mon with
             counts := ⟨0, 0, 0, 0⟩
             trapped := 0
             ring := pushReport s.mon.ring (frameReport (some z) s.rx.serviceRows s) } }
         else { u with timing.owedEnd := some ⟨z, s.rx.serviceRows⟩ }
       (f.rowOpen = false → ∀ width, f.firstRow = some width →
         exec .inputFrameEnd s =
           .next (ended ⟨width, f.row + 1⟩ { s with
             rx := { s.rx with frame := none, measured := some ⟨width, f.row + 1⟩ }
             timing.raster := some ⟨width, f.row + 1⟩ })) ∧
       (let cut : State := ended ⟨f.firstRow.getD f.pixels, f.row + 1⟩ { s with
          eng := s.engineCut f
          rx := { s.rx with frame := none, measured := none } }
        exec .linkLoss s = .next cut ∧ (f.rowOpen = true → exec .inputFrameEnd s = .next cut))) ∧
  ∀ (f : RxFrame) (s : State), s.powered = true → s.rx.frame = some f → f.rowOpen = true →
    ∃ e, exec .rowEnd s =
        .next { s with
          eng := e
          rx.frame := some { f with
            rowOpen := false
            firstRow := if f.row = 0 then some f.pixels else f.firstRow
            regionOpen := f.regionOpen && (decide (s.rx.serviceRows = f.row + 1) && decide (f.row < 11))
            dec := ⟨.idle, none, none, []⟩ } } ∧
      (f.dec.state ≠ .header → f.dec.state ≠ .packets → e = s.eng) ∧
      (f.dec.state = .header ∨ f.dec.state = .packets → s.eng.hold = none →
        e = { s.eng with hold := some ⟨.check, none, some f.row, none, s.timing.frameNumber⟩ }) ∧
      (s.eng.hold.isSome = true → e = s.eng)

/-- What a frame report holds and how the ring takes it (R5, R59, R60, Table 22): the bank is the live bank in a
FULL frame and none else; a fifth report removes the oldest. The last pixel of a frame that has ended on the link
gives the output frame end: the report is filed behind it, its counts are not kept, and no frame is in progress (R5, R22,
R48). That counts not kept read 0 is the model's (log 42). -/
def Obligations.FrameReportsFiled : Prop :=
  (∀ (z : Option Size) (rows : Nat) (s : State),
     let r := frameReport z rows s
     (r.frame = s.timing.frameNumber ∧ r.mode = s.pipe.live.mode ∧ r.window = s.pipe.live.window ∧
       r.bank = (if s.pipe.live.mode = .full then some s.pipe.live.bank else none) ∧ r.measured = z ∧
       r.serviceRows = rows ∧ r.counts = s.mon.counts ∧ r.trapped = s.mon.trapped ∧
       ∀ a, s.mon.acc = some a → r.signature = a.crc ∧ r.pixels = a.pixels) ∧
     (s.mon.ring.length < 4 → pushReport s.mon.ring r = s.mon.ring ++ [r]) ∧
     (∀ x l, s.mon.ring = x :: l → s.mon.ring.length = 4 → pushReport s.mon.ring r = l ++ [r])) ∧
  ∀ (p : InPixel) (e : EndedFrame) (s : State), s.powered = true → s.pipe.input = [p] → s.timing.owedEnd = some e →
    s.pipe.live.mode ≠ .full → rowDecided s p.y = true →
    ∃ u t, exec .pixelProcess { s with timing.owedEnd := none } = .next u ∧ exec .pixelProcess s = .next t ∧
      t = { u with
        timing.frame := .none
        mon := { u.mon with
          counts := ⟨0, 0, 0, 0⟩
          trapped := 0
          ring := pushReport s.mon.ring (frameReport (some e.measured) e.serviceRows u) } }

/-- The passing of the deadline (R7): output timing enters FREE_RUN, the measured size, the previous frame start
and the deadline become absent, and a free-run frame begins, with its raster. The end of a free-run frame files
its report and begins the next. In FREE_RUN a pixel is sent black, in raster order, and signed where the window
holds it (R9, R57, R58). In an input frame, or where the last one's output has not ended, the deadline first cuts that
frame, a line in HEADER or PACKETS with it (R162), and its report is filed (R6, R7, R24). Here no ACTIVATE is pending.
That FREE_RUN_FRAME_END may end a frame whose raster has not all been sent, and when the pixels held back by a cut frame
are sent, are the model's (log 8, log 7). -/
def Obligations.FreeRunSteps : Prop :=
  (∀ (rows : Nat) (size : Size) (e : Engine) (s : State), s.powered = true → s.timing.free = false →
    s.timing.deadline.isSome = true → s.store.activatePending = false →
    (s.rx.frame = none ∧ s.timing.owedEnd = some ⟨size, rows⟩ ∧ e = s.eng) ∨
      (∃ f, s.rx.frame = some f ∧ f.row < 65535 ∧ rows = s.rx.serviceRows ∧
        size = ⟨f.firstRow.getD f.pixels, f.row + 1⟩ ∧ e = s.engineCut f) →
    let raster := match s.timing.raster, s.store.geometry s.store.active with
      | some z, _ => z
      | none, some g => ⟨g.w, g.h⟩
      | none, none => ⟨3840, 2160⟩
    ∃ t r, exec .deadlineExpiry s = .next t ∧ t.rx.frame = none ∧ t.rx.measured = none ∧ t.rx.prevStart = none ∧
      t.timing = { s.timing with
        free := true, deadline := none, frameNumber := s.timing.frameNumber + 1, frame := .freeRun raster 0,
        owedEnd := none } ∧
      t.pipe.input = [] ∧ t.pipe.live = liveFrom s.pipe.pending .freeRun (applyWindow s.mon.window (some raster)) ∧
      t.buf = .start ∧ t.eng = e ∧
      t.mon.ring = pushReport s.mon.ring r ∧ r.frame = s.timing.frameNumber ∧ r.mode = s.pipe.live.mode ∧
      r.measured = some size ∧ r.serviceRows = rows) ∧
  ∀ s : State, s.quiet = true →
    let raster := match s.timing.raster, s.store.geometry s.store.active with
      | some z, _ => z
      | none, some g => ⟨g.w, g.h⟩
      | none, none => ⟨3840, 2160⟩
    let begun (u : State) : State := { u with
      timing.frameNumber := u.timing.frameNumber + 1
      timing.frame := .freeRun raster 0
      pipe.live := liveFrom u.pipe.pending .freeRun (applyWindow u.mon.window (some raster))
      mon.counts := ⟨0, 0, 0, 0⟩
      mon.trapped := 0
      mon.acc := some ⟨0xFFFFFFFF, 0⟩
      buf := .start }
    (s.timing.free = false → s.timing.deadline.isSome = true →
      exec .deadlineExpiry s =
        .next (begun { s with
          rx.measured := none, rx.prevStart := none, timing.free := true, timing.deadline := none })) ∧
    (s.timing.free = true →
      exec .freeRunFrameEnd s =
        .next (begun { s with mon.ring := pushReport s.mon.ring (frameReport none 0 s) })) ∧
    (∀ z n, s.timing.frame = .freeRun z n → n < z.width * z.height →
      ∃ m, exec .freeRunPixelSent s =
          .next { s with
            timing.frame := .freeRun z (n + 1)
            pipe.panel := some ⟨n % z.width, n / z.width, 0, 0, 0⟩
            mon.acc := m } ∧
        ∀ a, s.mon.acc = some a →
          (s.pipe.live.window.holds (n % z.width) (n / z.width) = false → m = some a) ∧
          (s.pipe.live.window.holds (n % z.width) (n / z.width) = true →
            m = some ⟨crc32From a.crc [0, 0, 0, 0, 0, 0], if a.pixels < 4294967295 then a.pixels + 1 else a.pixels⟩))

/-! ### Pixels (Chapters 1 to 3) -/

/-- PIXEL_RECEIVED (R1, R3, R156): with no frame in progress it changes nothing; else the pixel is counted in its
row, or begins the next, and joins those that wait, at its position; below the service region nothing else
changes. A row of the open region whose first eight bytes are not the marker closes the region: the decoder is IDLE, the
engine is not held, and the row and its pixels are of the picture (R158). That a pixel outside a frame changes nothing,
and that the mismatch is found at the eighth byte, are the model's (log 1, log 16). -/
def Obligations.PixelsReceived : Prop :=
  (∀ (row : List (BitVec 12 × BitVec 12 × BitVec 12)) (f : RxFrame) (s : State), s.powered = true →
    s.rx.frame = some f → f.beforeRow = true → 3 ≤ row.length → row.length ≤ 65535 →
    (rowBytes row).take 8 ≠ [0x3A, 0xC5, 0x71, 0x8E, 0x2C, 0xD3, 0x65, 0x9A] →
    ∃ t, runAll (row.map fun (r, g, b) => .pixelReceived r g b) s = .next t ∧
      t = { s with
        rx.frame := some { f with
          row := f.nextRow, pixels := row.length, rowOpen := true, regionOpen := false, dec := ⟨.idle, none, none, []⟩ }
        pipe.input := s.pipe.input ++ row.mapIdx fun i (r, g, b) => ⟨i, f.nextRow, r, g, b⟩ } ∧
      rowDecided t f.nextRow = true ∧ (isServiceRow t f.nextRow = true ↔ f.nextRow < s.rx.serviceRows)) ∧
  ∀ (r g b : BitVec 12) (s : State), s.powered = true →
    (s.rx.frame = none → exec (.pixelReceived r g b) s = .next s) ∧
    ∀ f : RxFrame, s.rx.frame = some f → f.regionOpen = false → f.dec.state = .idle → f.pixels < 65535 →
      f.row < 65535 →
      (f.rowOpen = true →
        exec (.pixelReceived r g b) s =
          .next { s with
            rx.frame := some { f with pixels := f.pixels + 1 }
            pipe.input := s.pipe.input ++ [⟨f.pixels, f.row, r, g, b⟩] }) ∧
      (f.rowOpen = false →
        exec (.pixelReceived r g b) s =
          .next { s with
            rx.frame := some { f with row := f.row + 1, pixels := 1, rowOpen := true, dec := ⟨.idle, none, none, []⟩ }
            pipe.input := s.pipe.input ++ [⟨0, f.row + 1, r, g, b⟩] })

/-- PIXEL_PROCESS: a pixel of a recognised service row is sent black (R18); a pixel of a picture row, once the
words it reads are delivered, is sent with what its chain gives, its conditions counted and flagged in the order
R, G, B (R22, R25, R45), and signed where the window holds it (R57); one that cannot be processed yet waits. In a
FULL frame the first pixel of pixel row jP, 1 ≤ j ≤ R_n − 1, begins band j: node row j + 2 is listed, if there is one
(R83), and the first row listed is fetched where no fetch is in progress, into the slot of the row three above it (R84). A
pixel reads, at each plane of its three components, the words at its four positions, and waits for them (R22). That a band
begins even where its first pixel then waits is the model's (log 36). -/
def Obligations.PixelsProcessed : Prop :=
  ∀ (p : InPixel) (rest : List InPixel) (s : State), s.powered = true → s.pipe.input = p :: rest →
    s.timing.owedEnd = none →
    let u := beginBand p.x p.y s
    let c := s.pipe.live
    let result (ch : Channel) (field : BitVec 12) : ChainResult :=
      chain c (slotLook u) ch p.x p.y (extend c.din (inputValue c.din field))
    let sent (ch : Channel) (field : BitVec 12) : Nat :=
      if p.y < s.rx.serviceRows then 0 else outputOf c p.x p.y (result ch field)
    let raised : Monitor :=
      if p.y < s.rx.serviceRows then s.mon
      else ((s.mon.channel s.timing.frameNumber c.masks p.x p.y .r (result .r p.r)).channel
        s.timing.frameNumber c.masks p.x p.y .g (result .g p.g)).channel
        s.timing.frameNumber c.masks p.x p.y .b (result .b p.b)
    (pixelReady p u = true →
      exec .pixelProcess s =
        .next { u with
          pipe := { s.pipe with
            input := rest
            panel := some ⟨p.x, p.y, outputField c.dout (sent .r p.r), outputField c.dout (sent .g p.g),
              outputField c.dout (sent .b p.b)⟩ }
          mon := raised.sign c.window p.x p.y (sent .r p.r) (sent .g p.g) (sent .b p.b) }) ∧
    (pixelReady p u = false → exec .pixelProcess s = .next u) ∧
    (c.mode ≠ .full → u = s ∧ pixelReady p u = rowDecided s p.y) ∧
    ∀ g, c.mode = .full → c.geometry = some g →
      let j := p.y / g.p
      let begins : Prop := p.x = 0 ∧ p.y % g.p = 0 ∧ 1 ≤ j ∧ j ≤ g.rows - 1 ∧ s.buf.bandBegun < j
      let list := if j + 2 ≤ g.rows - 1 then s.buf.fetchList ++ [j + 2] else s.buf.fetchList
      (¬ begins → u = s) ∧
      (begins → s.buf.fetch.isSome = true ∨ list = [] →
        u = { s with buf := { s.buf with bandBegun := j, fetchList := list } }) ∧
      (∀ (row k : Nat) (more : List Nat) (o : Option Slot), begins → s.buf.fetch = none → list = row :: more →
        s.buf.slots[k]? = some o → takesSlot c.bank row o →
        (∀ m < k, ∀ o', s.buf.slots[m]? = some o' → ¬ takesSlot c.bank row o') →
        u = { s with buf := { s.buf with
          slots := s.buf.slots.set k (some ⟨c.bank, row, 0, []⟩), bandBegun := j, fetchList := more, fetch := some k } }) ∧
      (pixelReady p u = true ↔ rowDecided s p.y = true ∧ (p.y < s.rx.serviceRows ∨
        ∀ field ∈ [p.r, p.g, p.b],
          let w := extend c.din (inputValue c.din field)
          ∀ plane ∈ (planeCase g.levels w).planes w, ∀ at_ ∈ positions g p.x p.y,
            ∃ sl, u.buf.slotWith c.bank at_.1 = some sl ∧ at_.2.1 * g.k + plane.1 < sl.delivered))

/-- The events of one pixel-channel at the monitor (R46, R47, R51): every raised condition sets its flag and adds
one to its count; a trapped pixel-channel adds one to the trapped count and fills an empty capture record with the
first condition raised; a filled one stays. -/
def Obligations.ChannelEvents : Prop :=
  ∀ (m : Monitor) (frame : BitVec 32) (masks : Marks) (x y : Nat) (ch : Channel) (c : LiveContext) (look : Look)
    (w : Nat),
    let r := chain c look ch x y w
    let t := m.channel frame masks x y ch r
    let up (raised : Bool) (n : Nat) : Nat := if raised = true ∧ n < 16777215 then n + 1 else n
    (∀ k, t.sticky.get k = (m.sticky.get k || r.conditions.contains k)) ∧
    t.counts = ⟨up (r.conditions.contains .nodeEcc) m.counts.nodeEcc, up (r.conditions.contains .clipLow) m.counts.clipLow,
      up (r.conditions.contains .clipHigh) m.counts.clipHigh, up (r.conditions.contains .limit) m.counts.limit⟩ ∧
    t.trapped = up (r.conditions.any masks.get) m.trapped ∧
    (∀ q, m.capture = some q → t.capture = some q) ∧
    (m.capture = none → r.conditions.any masks.get = false → t.capture = none) ∧
    (m.capture = none → r.conditions.any masks.get = true →
      ∃ k, r.conditions.head? = some k ∧ t.capture = some ⟨frame, x, y, ch, k, w, r.delta, r.before⟩) ∧
    t.window = m.window ∧ t.acc = m.acc ∧ t.ring = m.ring

/-- The applied window holds a position just where the setting does and, where a size limits it, the position lies
within that size (R56); the size of 0 is the model's reading (log 32). -/
def Obligations.WindowClipped : Prop :=
  ∀ (r : Rect) (x y : Nat),
    let inside := r.x0 ≤ x ∧ x ≤ r.x1 ∧ r.y0 ≤ y ∧ y ≤ r.y1
    ((applyWindow r none).holds x y = true ↔ inside) ∧
    ∀ z : Size, (applyWindow r (some z)).holds x y = true ↔ inside ∧ x < z.width ∧ y < z.height

/-! ### Correction arithmetic (Chapter 2) -/

/-- Stage 4: δ is the integer nearest to N · 2^S / D, and where two are equally near the one farther from zero
(R35). -/
def Obligations.CorrectionRounded : Prop :=
  ∀ (g : Geometry) (look : Look) (ch : Channel) (x y w : Nat), g.valid = true →
    let n : Int := blendNumerator g look ch x y w * 2 ^ g.s
    let d : Int := blendDivisor g w
    let δ := correction g look ch x y w
    0 < d ∧ (2 * (δ * d - n)).natAbs ≤ d.natAbs ∧
      ((2 * (δ * d - n)).natAbs = d.natAbs → n.natAbs < (δ * d).natAbs)

/-- "Every correction δ satisfies −512·2^S ≤ δ ≤ 511·2^S for the live S" (R36), with Table 15's ends. -/
def Obligations.CorrectionRange : Prop :=
  ∀ (g : Geometry) (look : Look) (ch : Channel) (x y w : Nat), g.valid = true →
    -512 * 2 ^ g.s ≤ correction g look ch x y w ∧ correction g look ch x y w ≤ 511 * 2 ^ g.s ∧
    (g.s = 0 ∨ g.s = 1 ∨ g.s = 2 ∨ g.s = 3)

/-- A poisoned word contributes 0: "Its stored value, whatever the read returned, takes no part in the
computation" (R29); the conditions and the value of a pixel-channel do not depend on it. -/
def Obligations.PoisonedValueUnused : Prop :=
  ∀ (c : LiveContext) (look other : Look) (ch : Channel) (x y w : Nat),
    (∀ j i k, (other j i k).poisoned = (look j i k).poisoned ∧
      ((look j i k).poisoned = false → (other j i k).word = (look j i k).word)) →
    chain c other ch x y w = chain c look ch x y w

/-- The value of a chain by frame mode (Table 14) and the order of its conditions (R37, R39, R44): BYPASS and
FREE_RUN raise none; MISMATCH only LIMIT; in FULL v before clip is w + δ, at most one of CLIP_LOW and CLIP_HIGH is
raised, and the conditions come in pipeline order. -/
def Obligations.ChainByMode : Prop :=
  ∀ (c : LiveContext) (look : Look) (ch : Channel) (x y w : Nat), w ≤ 16383 → c.gains.of ch ≤ 4096 →
    let r := chain c look ch x y w
    (c.mode = .bypass ∨ c.mode = .freeRun → r = ⟨w, none, none, [], w⟩) ∧
    (c.mode = .mismatch →
      r = ⟨w, none, none, if c.ceiling < (w * c.gains.of ch + 2048) / 4096 then [.limit] else [],
        min ((w * c.gains.of ch + 2048) / 4096) c.ceiling⟩) ∧
    (∀ g, c.mode = .full → c.geometry = some g → g.valid = true →
      ∃ v : Int, r.before = some v ∧ r.delta = some (correction g look ch x y w) ∧
        v = w + correction g look ch x y w ∧ -4096 ≤ v ∧ v ≤ 20471 ∧
        (.clipLow ∈ r.conditions ↔ v < 0) ∧ (.clipHigh ∈ r.conditions ↔ 16383 < v) ∧
        (.nodeEcc ∈ r.conditions ↔ eccRaised g look x y w = true) ∧
        (.limit ∈ r.conditions ↔ c.ceiling < (max 0 (min v 16383) * c.gains.of ch + 2048) / 4096) ∧
        r.value = min ((max 0 (min v 16383) * c.gains.of ch + 2048) / 4096) c.ceiling ∧
        (r.conditions.map conditionCode).Pairwise (· < ·))

/-- "Every output component lies in 0..2^Dout − 1 for the live Dout", and in a FULL frame none exceeds ceil(C_ceil
/ 2^(14 − Dout)) (R43); a trapped pixel-channel's is the squeeze of min(w, C_ceil) (R47). -/
def Obligations.OutputRange : Prop :=
  ∀ (c : LiveContext) (look : Look) (ch : Channel) (x y w : Nat),
    let r := chain c look ch x y w
    let out := outputOf c x y r
    out < 2 ^ c.dout.width ∧
    (c.mode = .full → c.geometry.isSome = true →
      out ≤ (c.ceiling + 2 ^ (14 - c.dout.width) - 1) / 2 ^ (14 - c.dout.width)) ∧
    (r.conditions.any c.masks.get = true → out = squeeze c.rounding c.dout x y (min w c.ceiling)) ∧
    (outputField c.dout out).toNat = out * 2 ^ (12 - c.dout.width)

/-! ### Service lines (Chapter 10) -/

/-- A service line delivers its packets: the pixels of a row that carries them, in the open service region, place
exactly those packets in the command queue, in order, where it has room, with no hold, whatever their reserved bytes
are; the row is a service row (R157 to R161). The row is row 0, or one of rows 1 to 11 that the first of the pixels
begins. -/
def Obligations.ServiceLineDelivers : Prop :=
  ∀ (ps : List (Byte × Packet)) (padding : List Byte) (row : List (BitVec 12 × BitVec 12 × BitVec 12)) (f : RxFrame)
    (s : State), s.powered = true → s.rx.frame = some f → f.beforeRow = true →
    rowBytes row = serviceLine ps ++ padding → (∀ p ∈ ps, payloadOk p.2.payload = true) →
    (packetsBytes ps).length ≤ 23028 → s.eng.queue.length + ps.length ≤ 320 →
    ∃ t, runAll (row.map fun (r, g, b) => .pixelReceived r g b) s = .next t ∧
      t.eng = { s.eng with queue := s.eng.queue ++ ps.map Prod.snd } ∧
      t.rx.serviceRows = s.rx.serviceRows + 1 ∧
      (∃ h, t.rx.frame = some h ∧ h.dec.state = .skipping ∧ h.row = f.nextRow ∧ h.regionOpen = true) ∧
      t.pipe.input.length = s.pipe.input.length + row.length ∧
      t = { s with eng := t.eng, rx := t.rx, pipe.input := t.pipe.input }

/-- A faulty line header discards the line and enters hold with CHECK and the row (R159). A line whose packets are good
up to one that shows a fault places those before it, discards the rest and enters hold with CHECK and the row: a length
code of 128 or more, a length beyond the byte count, a check that differs (R160). A good packet that meets a full command
queue is discarded and enters hold with OVERRUN, its tag and the row (R161). When a packet's room to begin is tested is
the model's (log 17). -/
def Obligations.LineFaultsHold : Prop :=
  (∀ (bytes : List Byte) (row : List (BitVec 12 × BitVec 12 × BitVec 12)) (f : RxFrame) (s : State),
    s.powered = true → s.rx.frame = some f → f.beforeRow = true → s.eng.hold = none →
    let heldAfter (queue : List Packet) : Prop :=
      ∃ t, runAll (row.map fun (r, g, b) => .pixelReceived r g b) s = .next t ∧
        t.eng = { s.eng with
          queue := queue, hold := some ⟨.check, none, some f.nextRow, none, s.timing.frameNumber⟩ } ∧
        ∃ h, t.rx.frame = some h ∧ h.dec.state = .skipping
    (∀ header : List Byte, header.length = 4 → rowBytes row = marker ++ header ++ bytes →
      crc16 (marker ++ header.take 2) ≠ halfAt header 2 ∨ 23028 < (halfAt header 0).toNat →
      heldAfter s.eng.queue) ∧
    ∀ (ps : List (Byte × Packet)) (count : Nat) (bad : List Byte),
      (∀ p ∈ ps, payloadOk p.2.payload = true) → count ≤ 23028 → (packetsBytes ps).length ≤ count →
      s.eng.queue.length + ps.length ≤ 320 → faultyPacket (count - (packetsBytes ps).length) bad →
      rowBytes row = lineHeader count ++ packetsBytes ps ++ bad ++ bytes →
      heldAfter (s.eng.queue ++ ps.map Prod.snd)) ∧
  ∀ (p : Packet) (row : Nat) (s : State), 320 ≤ s.eng.queue.length →
    (s.eng.hold = none → offerPacket p row s =
      { s with eng.hold := some ⟨.overrun, some p.tag, some row, none, s.timing.frameNumber⟩ }) ∧
    (s.eng.hold.isSome = true → offerPacket p row s = s)

end
end

