-- ==== Sys2Proof/Laws/Check.lean ====
section
/-! SUPPORT. The check bits do what R63 says of them, whatever the free equations are. -/

namespace Sys2Proof.Machine

/-! ### Bits that are set -/

theorem ones_append {m n : Nat} (a : BitVec m) (b : BitVec n) : ones (a ++ b) = ones a + ones b := by
  have hr : List.range (m + n) = List.range n ++ (List.range m).map (· + n) := by
    rw [Nat.add_comm, List.range_add]
    simp [Nat.add_comm]
  unfold ones
  rw [hr, List.countP_append, List.countP_map, Nat.add_comm]
  congr 1
  · exact List.countP_congr fun i hi => by simp [BitVec.getLsbD_append]
  · exact List.countP_congr fun i hi => by simp [BitVec.getLsbD_append, List.mem_range.mp hi]

/-- A word of which no bit is set is zero. -/
theorem eq_zero_of_ones {n : Nat} {v : BitVec n} (h : ones v = 0) : v = 0 := by
  apply BitVec.eq_of_getLsbD_eq
  intro i hi
  have := (List.countP_eq_zero.mp h) i (List.mem_range.mpr hi)
  simpa using this

/-! ### The parity equations -/

/-- The parity equations over the first `n` data bits. -/
def parityUpTo (n : Nat) (d : Word) : BitVec 7 :=
  (List.range n).foldl (fun v i => if d.getLsbD i then v ^^^ checkColumns.getD i 0 else v) 0

theorem parityUpTo_succ (n : Nat) (d : Word) :
    parityUpTo (n + 1) d = if d.getLsbD n then parityUpTo n d ^^^ checkColumns.getD n 0 else parityUpTo n d := by
  simp [parityUpTo, List.range_succ]

theorem parityUpTo_xor (n : Nat) (a b : Word) : parityUpTo n (a ^^^ b) = parityUpTo n a ^^^ parityUpTo n b := by
  induction n with
  | zero => simp [parityUpTo]
  | succ n ih =>
    rw [parityUpTo_succ, parityUpTo_succ, parityUpTo_succ, ih, BitVec.getLsbD_xor]
    generalize parityUpTo n a = x, parityUpTo n b = y, checkColumns.getD n 0 = c
    cases a.getLsbD n <;> cases b.getLsbD n <;>
      simp only [Bool.xor_self, Bool.true_xor, Bool.false_xor, Bool.not_false, Bool.false_eq_true, if_true, if_false]
    · rw [BitVec.xor_assoc]
    · rw [BitVec.xor_assoc, BitVec.xor_comm y c, ← BitVec.xor_assoc]
    · rw [BitVec.xor_assoc, ← BitVec.xor_assoc c y c, BitVec.xor_comm c y, BitVec.xor_assoc y c c]
      simp

/-- How many of the first `n` data bits are set, at most `k` of them, with the parity of each such choice. -/
def choices : Nat → Nat → List (Nat × BitVec 7)
  | 0, _ => [(0, 0)]
  | n + 1, 0 => choices n 0
  | n + 1, k + 1 => choices n (k + 1) ++ (choices n k).map fun c => (c.1 + 1, c.2 ^^^ checkColumns.getD n 0)

theorem mem_choices (d : Word) (n k : Nat) (h : (List.range n).countP d.getLsbD ≤ k) :
    ((List.range n).countP d.getLsbD, parityUpTo n d) ∈ choices n k := by
  induction n generalizing k with
  | zero => simp [choices, parityUpTo]
  | succ n ih =>
    rw [parityUpTo_succ]
    simp only [List.range_succ, List.countP_append, List.countP_singleton] at h ⊢
    cases hd : d.getLsbD n
    · simp only [hd, Bool.false_eq_true, if_false, Nat.add_zero] at h ⊢
      cases k with
      | zero => exact ih 0 h
      | succ k => exact List.mem_append_left _ (ih (k + 1) h)
    · simp only [hd, if_true] at h ⊢
      cases k with
      | zero => omega
      | succ k => exact List.mem_append_right _ (List.mem_map.mpr ⟨_, ih k (by omega), rfl⟩)

/-- Up to three columns never leave too few check bits: each choice sets four bits of the 39, or none. -/
theorem choices_far : (choices 32 3).all (fun c => c.1 == 0 || decide (4 ≤ ones c.2 + c.1)) = true := by
  decide +kernel

theorem parityEquations_far {d : Word} (h : d ≠ 0) : 4 ≤ ones (codeword parityEquations d) := by
  rw [codeword, ones_append]
  by_cases hk : ones d ≤ 3
  · have := List.all_eq_true.mp choices_far _ (mem_choices d 32 3 hk)
    have h0 : (List.range 32).countP d.getLsbD ≠ 0 := fun e => h (eq_zero_of_ones e)
    simp only [h0, Bool.or_eq_true, beq_iff_eq, false_or, decide_eq_true_eq] at this
    exact this
  · omega

theorem parityEquations_detects : detects parityEquations = true := by
  refine decide_eq_true fun a b h => ?_
  have hx : codeword parityEquations a ^^^ codeword parityEquations b = codeword parityEquations (a ^^^ b) := by
    simp only [codeword]
    rw [show parityEquations (a ^^^ b) = parityEquations a ^^^ parityEquations b from parityUpTo_xor 32 a b]
    apply BitVec.eq_of_getLsbD_eq
    intro i _
    simp only [BitVec.getLsbD_xor, BitVec.getLsbD_append]
    split <;> rfl
  rw [hx]
  exact parityEquations_far fun e => h (by simpa using (BitVec.xor_eq_zero_iff).mp e)

/-- The check bits do what R63 says, whatever the free equations are. -/
theorem checkBits_detects : detects checkBits = true := by
  by_cases h : detects Config.checkEquations = true
  · rwa [show checkBits = Config.checkEquations from funext fun d => by simp [checkBits, h]]
  · rw [show checkBits = parityEquations from funext fun d => by simp [checkBits, h]]
    exact parityEquations_detects

end Sys2Proof.Machine
end

