-- ==== Sys2Proof/Laws/Frames.lean ====
section
/-! SUPPORT. What the shared operations leave alone: one lemma for each operation, whose parts simp uses one by one, so
that a proof reads a block of the part through any nest of operations without unfolding one. -/

namespace Sys2Proof.Machine

variable (s : State)

@[simp] theorem dequeue_frame :
    (dequeue s).powered = s.powered ∧ (dequeue s).timing = s.timing ∧ (dequeue s).rx = s.rx ∧
    (dequeue s).pipe = s.pipe ∧ (dequeue s).mon = s.mon ∧ (dequeue s).store = s.store ∧ (dequeue s).buf = s.buf ∧
    (dequeue s).ret = s.ret ∧ (dequeue s).region = s.region ∧ (dequeue s).key = s.key ∧ (dequeue s).life = s.life ∧
    (dequeue s).pending = s.pending := by simp [dequeue]

@[simp] theorem enterHold_frame (c : HoldCause) (g : Option Byte) (r a : Option Nat) :
    (enterHold c g r a s).powered = s.powered ∧ (enterHold c g r a s).timing = s.timing ∧
    (enterHold c g r a s).rx = s.rx ∧ (enterHold c g r a s).pipe = s.pipe ∧ (enterHold c g r a s).mon = s.mon ∧
    (enterHold c g r a s).store = s.store ∧ (enterHold c g r a s).buf = s.buf ∧ (enterHold c g r a s).ret = s.ret ∧
    (enterHold c g r a s).region = s.region ∧ (enterHold c g r a s).key = s.key ∧
    (enterHold c g r a s).life = s.life ∧ (enterHold c g r a s).pending = s.pending := by
  unfold enterHold
  repeat' split
  all_goals simp

@[simp] theorem startLane_frame :
    (startLane s).powered = s.powered ∧ (startLane s).timing = s.timing ∧ (startLane s).rx = s.rx ∧
    (startLane s).pipe = s.pipe ∧ (startLane s).mon = s.mon ∧ (startLane s).store = s.store ∧
    (startLane s).buf = s.buf ∧ (startLane s).eng = s.eng ∧ (startLane s).region = s.region ∧
    (startLane s).key = s.key ∧ (startLane s).life = s.life ∧ (startLane s).pending = s.pending := by
  unfold startLane
  repeat' split
  all_goals simp

@[simp] theorem offer_frame (w : Poster) (r : Reply) :
    (offer w r s).powered = s.powered ∧ (offer w r s).timing = s.timing ∧ (offer w r s).rx = s.rx ∧
    (offer w r s).pipe = s.pipe ∧ (offer w r s).mon = s.mon ∧ (offer w r s).store = s.store ∧
    (offer w r s).buf = s.buf ∧ (offer w r s).eng = s.eng ∧ (offer w r s).region = s.region ∧
    (offer w r s).key = s.key ∧ (offer w r s).life = s.life ∧ (offer w r s).pending = s.pending := by
  unfold offer
  repeat' split
  all_goals simp

@[simp] theorem post_frame (w : Poster) (g c : Byte) (o : Completion) (l : List Word) :
    (post w g c o l s).powered = s.powered ∧ (post w g c o l s).timing = s.timing ∧ (post w g c o l s).rx = s.rx ∧
    (post w g c o l s).pipe = s.pipe ∧ (post w g c o l s).mon = s.mon ∧ (post w g c o l s).store = s.store ∧
    (post w g c o l s).buf = s.buf ∧ (post w g c o l s).eng = s.eng ∧ (post w g c o l s).region = s.region ∧
    (post w g c o l s).key = s.key ∧ (post w g c o l s).life = s.life ∧
    (post w g c o l s).pending = s.pending := by simp [post]

@[simp] theorem postDeferred_frame (w : Poster) (g c : Byte) (o : Completion) (l : List Word) :
    (postDeferred w g c o l s).powered = s.powered ∧ (postDeferred w g c o l s).timing = s.timing ∧
    (postDeferred w g c o l s).rx = s.rx ∧ (postDeferred w g c o l s).pipe = s.pipe ∧
    (postDeferred w g c o l s).mon = s.mon ∧ (postDeferred w g c o l s).store = s.store ∧
    (postDeferred w g c o l s).buf = s.buf ∧ (postDeferred w g c o l s).eng = s.eng ∧
    (postDeferred w g c o l s).region = s.region ∧ (postDeferred w g c o l s).key = s.key ∧
    (postDeferred w g c o l s).life = s.life ∧ (postDeferred w g c o l s).pending = s.pending := by
  unfold postDeferred
  split <;> simp

@[simp] theorem completeAbort_frame :
    (completeAbort s).powered = s.powered ∧ (completeAbort s).timing = s.timing ∧ (completeAbort s).rx = s.rx ∧
    (completeAbort s).pipe = s.pipe ∧ (completeAbort s).mon = s.mon ∧ (completeAbort s).store = s.store ∧
    (completeAbort s).buf = s.buf ∧ (completeAbort s).region = s.region ∧ (completeAbort s).key = s.key ∧
    (completeAbort s).life = s.life ∧ (completeAbort s).pending = s.pending ∧
    (completeAbort s).eng.queue = s.eng.queue ∧ (completeAbort s).eng.hold = s.eng.hold ∧
    (completeAbort s).eng.anchors = s.eng.anchors ∧ (completeAbort s).eng.holdActivate = s.eng.holdActivate ∧
    (completeAbort s).eng.holdKeyLock = s.eng.holdKeyLock ∧ (completeAbort s).eng.holdCommit = s.eng.holdCommit ∧
    (completeAbort s).eng.holdRestart = s.eng.holdRestart ∧ (completeAbort s).eng.restarting = s.eng.restarting := by
  unfold completeAbort
  repeat' split
  all_goals simp

@[simp] theorem postNext_frame (w : Poster) :
    (postNext w s).powered = s.powered ∧ (postNext w s).timing = s.timing ∧ (postNext w s).rx = s.rx ∧
    (postNext w s).pipe = s.pipe ∧ (postNext w s).mon = s.mon ∧ (postNext w s).store = s.store ∧
    (postNext w s).buf = s.buf ∧ (postNext w s).region = s.region ∧ (postNext w s).key = s.key ∧
    (postNext w s).life = s.life ∧ (postNext w s).pending = s.pending ∧ (postNext w s).eng.queue = s.eng.queue ∧
    (postNext w s).eng.hold = s.eng.hold ∧ (postNext w s).eng.anchors = s.eng.anchors ∧
    (postNext w s).eng.holdActivate = s.eng.holdActivate ∧ (postNext w s).eng.holdKeyLock = s.eng.holdKeyLock ∧
    (postNext w s).eng.holdCommit = s.eng.holdCommit ∧ (postNext w s).eng.holdRestart = s.eng.holdRestart ∧
    (postNext w s).eng.restarting = s.eng.restarting := by
  unfold postNext
  dsimp only
  repeat' split
  all_goals simp

@[simp] theorem admitWaiter_frame :
    (admitWaiter s).powered = s.powered ∧ (admitWaiter s).timing = s.timing ∧ (admitWaiter s).rx = s.rx ∧
    (admitWaiter s).pipe = s.pipe ∧ (admitWaiter s).mon = s.mon ∧ (admitWaiter s).store = s.store ∧
    (admitWaiter s).buf = s.buf ∧ (admitWaiter s).region = s.region ∧ (admitWaiter s).key = s.key ∧
    (admitWaiter s).life = s.life ∧ (admitWaiter s).pending = s.pending ∧ (admitWaiter s).eng.queue = s.eng.queue ∧
    (admitWaiter s).eng.hold = s.eng.hold ∧ (admitWaiter s).eng.anchors = s.eng.anchors ∧
    (admitWaiter s).eng.holdActivate = s.eng.holdActivate ∧ (admitWaiter s).eng.holdKeyLock = s.eng.holdKeyLock ∧
    (admitWaiter s).eng.holdCommit = s.eng.holdCommit ∧ (admitWaiter s).eng.holdRestart = s.eng.holdRestart ∧
    (admitWaiter s).eng.restarting = s.eng.restarting := by
  unfold admitWaiter
  repeat' split
  all_goals simp

@[simp] theorem setDec_frame (d : Decoder) :
    (setDec d s).powered = s.powered ∧ (setDec d s).timing = s.timing ∧ (setDec d s).pipe = s.pipe ∧
    (setDec d s).mon = s.mon ∧ (setDec d s).store = s.store ∧ (setDec d s).buf = s.buf ∧ (setDec d s).eng = s.eng ∧
    (setDec d s).ret = s.ret ∧ (setDec d s).region = s.region ∧ (setDec d s).key = s.key ∧
    (setDec d s).life = s.life ∧ (setDec d s).pending = s.pending := by
  unfold setDec
  repeat' split
  all_goals simp

@[simp] theorem lineFault_frame (r : Nat) (d : Decoder) :
    (lineFault r d s).powered = s.powered ∧ (lineFault r d s).timing = s.timing ∧ (lineFault r d s).pipe = s.pipe ∧
    (lineFault r d s).mon = s.mon ∧ (lineFault r d s).store = s.store ∧ (lineFault r d s).buf = s.buf ∧
    (lineFault r d s).ret = s.ret ∧ (lineFault r d s).region = s.region ∧ (lineFault r d s).key = s.key ∧
    (lineFault r d s).life = s.life ∧ (lineFault r d s).pending = s.pending := by simp [lineFault]

@[simp] theorem decideMarker_frame (f : RxFrame) (l : List Byte) :
    (decideMarker f l s).powered = s.powered ∧ (decideMarker f l s).timing = s.timing ∧
    (decideMarker f l s).pipe = s.pipe ∧ (decideMarker f l s).mon = s.mon ∧ (decideMarker f l s).store = s.store ∧
    (decideMarker f l s).buf = s.buf ∧ (decideMarker f l s).eng = s.eng ∧ (decideMarker f l s).ret = s.ret ∧
    (decideMarker f l s).region = s.region ∧ (decideMarker f l s).key = s.key ∧ (decideMarker f l s).life = s.life ∧
    (decideMarker f l s).pending = s.pending := by
  unfold decideMarker
  repeat' split
  all_goals simp

@[simp] theorem decideHeader_frame (r : Nat) (l : List Byte) :
    (decideHeader r l s).powered = s.powered ∧ (decideHeader r l s).timing = s.timing ∧
    (decideHeader r l s).pipe = s.pipe ∧ (decideHeader r l s).mon = s.mon ∧ (decideHeader r l s).store = s.store ∧
    (decideHeader r l s).buf = s.buf ∧ (decideHeader r l s).ret = s.ret ∧ (decideHeader r l s).region = s.region ∧
    (decideHeader r l s).key = s.key ∧ (decideHeader r l s).life = s.life ∧
    (decideHeader r l s).pending = s.pending := by
  unfold decideHeader
  repeat' (first | split | (dsimp only; split))
  all_goals simp

@[simp] theorem offerPacket_frame (p : Packet) (r : Nat) :
    (offerPacket p r s).powered = s.powered ∧ (offerPacket p r s).timing = s.timing ∧ (offerPacket p r s).rx = s.rx ∧
    (offerPacket p r s).pipe = s.pipe ∧ (offerPacket p r s).mon = s.mon ∧ (offerPacket p r s).store = s.store ∧
    (offerPacket p r s).buf = s.buf ∧ (offerPacket p r s).ret = s.ret ∧ (offerPacket p r s).region = s.region ∧
    (offerPacket p r s).key = s.key ∧ (offerPacket p r s).life = s.life ∧
    (offerPacket p r s).pending = s.pending := by
  unfold offerPacket
  repeat' split
  all_goals simp

@[simp] theorem decidePacket_frame (r c n : Nat) (l : List Byte) :
    (decidePacket r c n l s).powered = s.powered ∧ (decidePacket r c n l s).timing = s.timing ∧
    (decidePacket r c n l s).pipe = s.pipe ∧ (decidePacket r c n l s).mon = s.mon ∧
    (decidePacket r c n l s).store = s.store ∧ (decidePacket r c n l s).buf = s.buf ∧
    (decidePacket r c n l s).ret = s.ret ∧ (decidePacket r c n l s).region = s.region ∧
    (decidePacket r c n l s).key = s.key ∧ (decidePacket r c n l s).life = s.life ∧
    (decidePacket r c n l s).pending = s.pending := by
  unfold decidePacket
  repeat' (first | split | (dsimp only; split))
  all_goals simp

@[simp] theorem decodeByte_frame (x : Byte) :
    (decodeByte s x).powered = s.powered ∧ (decodeByte s x).timing = s.timing ∧ (decodeByte s x).pipe = s.pipe ∧
    (decodeByte s x).mon = s.mon ∧ (decodeByte s x).store = s.store ∧ (decodeByte s x).buf = s.buf ∧
    (decodeByte s x).ret = s.ret ∧ (decodeByte s x).region = s.region ∧ (decodeByte s x).key = s.key ∧
    (decodeByte s x).life = s.life ∧ (decodeByte s x).pending = s.pending := by
  unfold decodeByte
  repeat' (first | split | (dsimp only; split))
  all_goals simp

@[simp] theorem postRestart_frame :
    (postRestart s).powered = s.powered ∧ (postRestart s).timing = s.timing ∧ (postRestart s).rx = s.rx ∧
    (postRestart s).pipe = s.pipe ∧ (postRestart s).mon = s.mon ∧ (postRestart s).store = s.store ∧
    (postRestart s).buf = s.buf ∧ (postRestart s).region = s.region ∧ (postRestart s).key = s.key ∧
    (postRestart s).life = s.life ∧ (postRestart s).pending = s.pending := by
  unfold postRestart
  repeat' split
  all_goals simp

@[simp] theorem noteRead_frame (bank : Bank) (a : Nat) :
    (noteRead bank a s).powered = s.powered ∧ (noteRead bank a s).timing = s.timing ∧ (noteRead bank a s).rx = s.rx ∧
    (noteRead bank a s).pipe = s.pipe ∧ (noteRead bank a s).mon = s.mon ∧ (noteRead bank a s).buf = s.buf ∧
    (noteRead bank a s).eng = s.eng ∧ (noteRead bank a s).ret = s.ret ∧ (noteRead bank a s).region = s.region ∧
    (noteRead bank a s).key = s.key ∧ (noteRead bank a s).life = s.life ∧
    (noteRead bank a s).pending = s.pending := by simp [noteRead]

@[simp] theorem beginFetch_frame :
    (beginFetch s).powered = s.powered ∧ (beginFetch s).timing = s.timing ∧ (beginFetch s).rx = s.rx ∧
    (beginFetch s).pipe = s.pipe ∧ (beginFetch s).mon = s.mon ∧ (beginFetch s).store = s.store ∧
    (beginFetch s).eng = s.eng ∧ (beginFetch s).ret = s.ret ∧ (beginFetch s).region = s.region ∧
    (beginFetch s).key = s.key ∧ (beginFetch s).life = s.life ∧ (beginFetch s).pending = s.pending := by
  unfold beginFetch
  repeat' split
  all_goals simp

@[simp] theorem fetchRead_frame :
    (fetchRead s).powered = s.powered ∧ (fetchRead s).timing = s.timing ∧ (fetchRead s).rx = s.rx ∧
    (fetchRead s).pipe = s.pipe ∧ (fetchRead s).mon = s.mon ∧ (fetchRead s).eng = s.eng ∧ (fetchRead s).ret = s.ret ∧
    (fetchRead s).region = s.region ∧ (fetchRead s).key = s.key ∧ (fetchRead s).life = s.life ∧
    (fetchRead s).pending = s.pending := by
  unfold fetchRead
  repeat' split
  all_goals simp

@[simp] theorem writeThrough_frame (bank : Bank) (a : Nat) (w : Word) :
    (writeThrough bank a w s).powered = s.powered ∧ (writeThrough bank a w s).timing = s.timing ∧
    (writeThrough bank a w s).rx = s.rx ∧ (writeThrough bank a w s).pipe = s.pipe ∧
    (writeThrough bank a w s).mon = s.mon ∧ (writeThrough bank a w s).store = s.store ∧
    (writeThrough bank a w s).eng = s.eng ∧ (writeThrough bank a w s).ret = s.ret ∧
    (writeThrough bank a w s).region = s.region ∧ (writeThrough bank a w s).key = s.key ∧
    (writeThrough bank a w s).life = s.life ∧ (writeThrough bank a w s).pending = s.pending := by
  unfold writeThrough
  repeat' split
  all_goals simp

@[simp] theorem commandWrite_frame (bank : Bank) (a : Nat) (w : Word) :
    (commandWrite bank a w s).powered = s.powered ∧ (commandWrite bank a w s).timing = s.timing ∧
    (commandWrite bank a w s).rx = s.rx ∧ (commandWrite bank a w s).pipe = s.pipe ∧
    (commandWrite bank a w s).mon = s.mon ∧ (commandWrite bank a w s).eng = s.eng ∧
    (commandWrite bank a w s).ret = s.ret ∧ (commandWrite bank a w s).region = s.region ∧
    (commandWrite bank a w s).key = s.key ∧ (commandWrite bank a w s).life = s.life ∧
    (commandWrite bank a w s).pending = s.pending := by simp [commandWrite]

@[simp] theorem startBuffer_frame :
    (startBuffer s).powered = s.powered ∧ (startBuffer s).timing = s.timing ∧ (startBuffer s).rx = s.rx ∧
    (startBuffer s).pipe = s.pipe ∧ (startBuffer s).mon = s.mon ∧ (startBuffer s).store = s.store ∧
    (startBuffer s).eng = s.eng ∧ (startBuffer s).ret = s.ret ∧ (startBuffer s).region = s.region ∧
    (startBuffer s).key = s.key ∧ (startBuffer s).life = s.life ∧
    (startBuffer s).pending = s.pending := by simp [startBuffer]

@[simp] theorem beginBand_frame (x y : Nat) :
    (beginBand x y s).powered = s.powered ∧ (beginBand x y s).timing = s.timing ∧ (beginBand x y s).rx = s.rx ∧
    (beginBand x y s).pipe = s.pipe ∧ (beginBand x y s).mon = s.mon ∧ (beginBand x y s).store = s.store ∧
    (beginBand x y s).eng = s.eng ∧ (beginBand x y s).ret = s.ret ∧ (beginBand x y s).region = s.region ∧
    (beginBand x y s).key = s.key ∧ (beginBand x y s).life = s.life ∧ (beginBand x y s).pending = s.pending := by
  unfold beginBand
  repeat' (first | split | (dsimp only; split))
  all_goals simp

@[simp] theorem outputFrameEnd_frame (m : Option Size) (n : Nat) :
    (outputFrameEnd m n s).powered = s.powered ∧ (outputFrameEnd m n s).rx = s.rx ∧
    (outputFrameEnd m n s).pipe = s.pipe ∧ (outputFrameEnd m n s).store = s.store ∧
    (outputFrameEnd m n s).buf = s.buf ∧ (outputFrameEnd m n s).eng = s.eng ∧ (outputFrameEnd m n s).ret = s.ret ∧
    (outputFrameEnd m n s).region = s.region ∧ (outputFrameEnd m n s).key = s.key ∧
    (outputFrameEnd m n s).life = s.life ∧ (outputFrameEnd m n s).pending = s.pending := by simp [outputFrameEnd]

@[simp] theorem sendPixel_frame (x y r g b : Nat) :
    (sendPixel x y r g b s).powered = s.powered ∧ (sendPixel x y r g b s).timing = s.timing ∧
    (sendPixel x y r g b s).rx = s.rx ∧ (sendPixel x y r g b s).store = s.store ∧
    (sendPixel x y r g b s).buf = s.buf ∧ (sendPixel x y r g b s).eng = s.eng ∧ (sendPixel x y r g b s).ret = s.ret ∧
    (sendPixel x y r g b s).region = s.region ∧ (sendPixel x y r g b s).key = s.key ∧
    (sendPixel x y r g b s).life = s.life ∧ (sendPixel x y r g b s).pending = s.pending := by simp [sendPixel]

@[simp] theorem processPicture_frame (p : InPixel) :
    (processPicture p s).powered = s.powered ∧ (processPicture p s).timing = s.timing ∧
    (processPicture p s).rx = s.rx ∧ (processPicture p s).store = s.store ∧ (processPicture p s).buf = s.buf ∧
    (processPicture p s).eng = s.eng ∧ (processPicture p s).ret = s.ret ∧ (processPicture p s).region = s.region ∧
    (processPicture p s).key = s.key ∧ (processPicture p s).life = s.life ∧
    (processPicture p s).pending = s.pending := by simp [processPicture]

@[simp] theorem processPixel_frame (p : InPixel) :
    (processPixel p s).powered = s.powered ∧ (processPixel p s).timing = s.timing ∧ (processPixel p s).rx = s.rx ∧
    (processPixel p s).store = s.store ∧ (processPixel p s).buf = s.buf ∧ (processPixel p s).eng = s.eng ∧
    (processPixel p s).ret = s.ret ∧ (processPixel p s).region = s.region ∧ (processPixel p s).key = s.key ∧
    (processPixel p s).life = s.life ∧ (processPixel p s).pending = s.pending := by
  unfold processPixel
  repeat' split
  all_goals simp

@[simp] theorem endWhenSent_frame :
    (endWhenSent s).powered = s.powered ∧ (endWhenSent s).rx = s.rx ∧ (endWhenSent s).pipe = s.pipe ∧
    (endWhenSent s).store = s.store ∧ (endWhenSent s).buf = s.buf ∧ (endWhenSent s).eng = s.eng ∧
    (endWhenSent s).ret = s.ret ∧ (endWhenSent s).region = s.region ∧ (endWhenSent s).key = s.key ∧
    (endWhenSent s).life = s.life ∧ (endWhenSent s).pending = s.pending := by
  unfold endWhenSent
  repeat' split
  all_goals simp

@[simp] theorem completeActivate_frame :
    (completeActivate s).powered = s.powered ∧ (completeActivate s).timing = s.timing ∧
    (completeActivate s).rx = s.rx ∧ (completeActivate s).mon = s.mon ∧ (completeActivate s).buf = s.buf ∧
    (completeActivate s).region = s.region ∧ (completeActivate s).key = s.key ∧ (completeActivate s).life = s.life ∧
    (completeActivate s).pending = s.pending := by
  unfold completeActivate
  repeat' split
  all_goals simp

@[simp] theorem outputFrameStart_frame (f : Bool) :
    (outputFrameStart f s).powered = s.powered ∧ (outputFrameStart f s).rx = s.rx ∧
    (outputFrameStart f s).region = s.region ∧ (outputFrameStart f s).key = s.key ∧
    (outputFrameStart f s).life = s.life ∧ (outputFrameStart f s).pending = s.pending := by simp [outputFrameStart]

@[simp] theorem cutLine_frame (f : RxFrame) :
    (cutLine f s).powered = s.powered ∧ (cutLine f s).timing = s.timing ∧ (cutLine f s).rx = s.rx ∧
    (cutLine f s).pipe = s.pipe ∧ (cutLine f s).mon = s.mon ∧ (cutLine f s).store = s.store ∧
    (cutLine f s).buf = s.buf ∧ (cutLine f s).ret = s.ret ∧ (cutLine f s).region = s.region ∧
    (cutLine f s).key = s.key ∧ (cutLine f s).life = s.life ∧ (cutLine f s).pending = s.pending := by
  unfold cutLine
  repeat' split
  all_goals simp

@[simp] theorem cutFrame_frame :
    (cutFrame s).powered = s.powered ∧ (cutFrame s).pipe = s.pipe ∧ (cutFrame s).store = s.store ∧
    (cutFrame s).buf = s.buf ∧ (cutFrame s).ret = s.ret ∧ (cutFrame s).region = s.region ∧ (cutFrame s).key = s.key ∧
    (cutFrame s).life = s.life ∧ (cutFrame s).pending = s.pending := by
  unfold cutFrame
  repeat' split
  all_goals simp

@[simp] theorem cutLate_frame :
    (cutLate s).powered = s.powered ∧ (cutLate s).timing = s.timing ∧ (cutLate s).pipe = s.pipe ∧ (cutLate s).mon = s.mon ∧
    (cutLate s).store = s.store ∧ (cutLate s).buf = s.buf ∧ (cutLate s).eng = s.eng ∧ (cutLate s).ret = s.ret ∧
    (cutLate s).region = s.region ∧ (cutLate s).key = s.key ∧ (cutLate s).life = s.life ∧ (cutLate s).pending = s.pending := by
  unfold cutLate
  split <;> simp

@[simp] theorem endFrame_frame (f : RxFrame) :
    (endFrame f s).powered = s.powered ∧ (endFrame f s).pipe = s.pipe ∧ (endFrame f s).store = s.store ∧
    (endFrame f s).buf = s.buf ∧ (endFrame f s).eng = s.eng ∧ (endFrame f s).ret = s.ret ∧
    (endFrame f s).region = s.region ∧ (endFrame f s).key = s.key ∧ (endFrame f s).life = s.life ∧
    (endFrame f s).pending = s.pending := by simp [endFrame]

@[simp] theorem endFreeRun_frame :
    (endFreeRun s).powered = s.powered ∧ (endFreeRun s).rx = s.rx ∧ (endFreeRun s).pipe = s.pipe ∧
    (endFreeRun s).store = s.store ∧ (endFreeRun s).buf = s.buf ∧ (endFreeRun s).eng = s.eng ∧
    (endFreeRun s).ret = s.ret ∧ (endFreeRun s).region = s.region ∧ (endFreeRun s).key = s.key ∧
    (endFreeRun s).life = s.life ∧ (endFreeRun s).pending = s.pending := by
  unfold endFreeRun
  repeat' split
  all_goals simp

@[simp] theorem takePeriod_frame (n : Nat) :
    (takePeriod n s).powered = s.powered ∧ (takePeriod n s).pipe = s.pipe ∧ (takePeriod n s).mon = s.mon ∧
    (takePeriod n s).store = s.store ∧ (takePeriod n s).buf = s.buf ∧ (takePeriod n s).eng = s.eng ∧
    (takePeriod n s).ret = s.ret ∧ (takePeriod n s).region = s.region ∧ (takePeriod n s).key = s.key ∧
    (takePeriod n s).life = s.life ∧ (takePeriod n s).pending = s.pending := by simp [takePeriod]

@[simp] theorem advanceAnchor_frame (r : Run) (w : Bool) :
    (advanceAnchor r w s).powered = s.powered ∧ (advanceAnchor r w s).timing = s.timing ∧
    (advanceAnchor r w s).rx = s.rx ∧ (advanceAnchor r w s).pipe = s.pipe ∧ (advanceAnchor r w s).mon = s.mon ∧
    (advanceAnchor r w s).store = s.store ∧ (advanceAnchor r w s).buf = s.buf ∧ (advanceAnchor r w s).ret = s.ret ∧
    (advanceAnchor r w s).region = s.region ∧ (advanceAnchor r w s).key = s.key ∧
    (advanceAnchor r w s).life = s.life ∧ (advanceAnchor r w s).pending = s.pending := by
  unfold advanceAnchor
  repeat' (first | split | (dsimp only; split))
  all_goals simp

@[simp] theorem completeRun_frame (r : Run) (c : Byte) (l : List Word) :
    (completeRun r c l s).powered = s.powered ∧ (completeRun r c l s).timing = s.timing ∧
    (completeRun r c l s).rx = s.rx ∧ (completeRun r c l s).pipe = s.pipe ∧ (completeRun r c l s).mon = s.mon ∧
    (completeRun r c l s).store = s.store ∧ (completeRun r c l s).buf = s.buf ∧
    (completeRun r c l s).region = s.region ∧ (completeRun r c l s).key = s.key ∧
    (completeRun r c l s).life = s.life ∧ (completeRun r c l s).pending = s.pending := by simp [completeRun]

@[simp] theorem postKeyLock_frame (c : Completion) (n : Nat) (k : SlotState) (f : Nat) :
    (postKeyLock c n k f s).powered = s.powered ∧ (postKeyLock c n k f s).timing = s.timing ∧
    (postKeyLock c n k f s).rx = s.rx ∧ (postKeyLock c n k f s).pipe = s.pipe ∧ (postKeyLock c n k f s).mon = s.mon ∧
    (postKeyLock c n k f s).store = s.store ∧ (postKeyLock c n k f s).buf = s.buf ∧
    (postKeyLock c n k f s).region = s.region ∧ (postKeyLock c n k f s).key = s.key ∧
    (postKeyLock c n k f s).life = s.life ∧ (postKeyLock c n k f s).pending = s.pending := by
  unfold postKeyLock
  repeat' split
  all_goals simp

@[simp] theorem breakKeyLock_frame (n : Nat) :
    (breakKeyLock n s).powered = s.powered ∧ (breakKeyLock n s).timing = s.timing ∧ (breakKeyLock n s).rx = s.rx ∧
    (breakKeyLock n s).pipe = s.pipe ∧ (breakKeyLock n s).mon = s.mon ∧ (breakKeyLock n s).store = s.store ∧
    (breakKeyLock n s).buf = s.buf ∧ (breakKeyLock n s).region = s.region ∧ (breakKeyLock n s).life = s.life ∧
    (breakKeyLock n s).pending = s.pending := by simp [breakKeyLock]

@[simp] theorem endKeyLock_frame (n : Nat) (r : KeyRecord) (c : Completion) (f : Nat) :
    (endKeyLock n r c f s).powered = s.powered ∧ (endKeyLock n r c f s).timing = s.timing ∧
    (endKeyLock n r c f s).rx = s.rx ∧ (endKeyLock n r c f s).pipe = s.pipe ∧ (endKeyLock n r c f s).mon = s.mon ∧
    (endKeyLock n r c f s).store = s.store ∧ (endKeyLock n r c f s).buf = s.buf ∧
    (endKeyLock n r c f s).region = s.region ∧ (endKeyLock n r c f s).life = s.life ∧
    (endKeyLock n r c f s).pending = s.pending := by simp [endKeyLock]

@[simp] theorem postCommit_frame (c : Completion) (l : List Word) :
    (postCommit c l s).powered = s.powered ∧ (postCommit c l s).timing = s.timing ∧ (postCommit c l s).rx = s.rx ∧
    (postCommit c l s).pipe = s.pipe ∧ (postCommit c l s).mon = s.mon ∧ (postCommit c l s).store = s.store ∧
    (postCommit c l s).buf = s.buf ∧ (postCommit c l s).region = s.region ∧ (postCommit c l s).key = s.key ∧
    (postCommit c l s).life = s.life ∧ (postCommit c l s).pending = s.pending := by
  unfold postCommit
  split <;> simp

@[simp] theorem commitStopped_frame (c : Commit) (w : CommitStop) (e : Bool) :
    (commitStopped c w e s).powered = s.powered ∧ (commitStopped c w e s).timing = s.timing ∧
    (commitStopped c w e s).rx = s.rx ∧ (commitStopped c w e s).pipe = s.pipe ∧ (commitStopped c w e s).mon = s.mon ∧
    (commitStopped c w e s).store = s.store ∧ (commitStopped c w e s).buf = s.buf ∧
    (commitStopped c w e s).region = s.region ∧ (commitStopped c w e s).key = s.key ∧
    (commitStopped c w e s).pending = s.pending := by
  unfold commitStopped
  repeat' split
  all_goals simp

@[simp] theorem commitSucceeds_frame (c : Commit) :
    (commitSucceeds c s).powered = s.powered ∧ (commitSucceeds c s).timing = s.timing ∧
    (commitSucceeds c s).rx = s.rx ∧ (commitSucceeds c s).mon = s.mon ∧ (commitSucceeds c s).store = s.store ∧
    (commitSucceeds c s).buf = s.buf ∧ (commitSucceeds c s).region = s.region ∧ (commitSucceeds c s).key = s.key ∧
    (commitSucceeds c s).pending = s.pending := by simp [commitSucceeds]

@[simp] theorem cancelActivate_frame :
    (cancelActivate s).powered = s.powered ∧ (cancelActivate s).timing = s.timing ∧ (cancelActivate s).rx = s.rx ∧
    (cancelActivate s).pipe = s.pipe ∧ (cancelActivate s).mon = s.mon ∧ (cancelActivate s).buf = s.buf ∧
    (cancelActivate s).region = s.region ∧ (cancelActivate s).key = s.key ∧ (cancelActivate s).life = s.life ∧
    (cancelActivate s).pending = s.pending := by
  unfold cancelActivate
  repeat' split
  all_goals simp

@[simp] theorem breakProgramming_frame :
    (breakProgramming s).powered = s.powered ∧ (breakProgramming s).timing = s.timing ∧
    (breakProgramming s).rx = s.rx ∧ (breakProgramming s).pipe = s.pipe ∧ (breakProgramming s).mon = s.mon ∧
    (breakProgramming s).store = s.store ∧ (breakProgramming s).buf = s.buf ∧ (breakProgramming s).region = s.region ∧
    (breakProgramming s).life = s.life ∧ (breakProgramming s).pending = s.pending := by
  unfold breakProgramming
  repeat' split
  all_goals simp

@[simp] theorem breakCommit_frame :
    (breakCommit s).powered = s.powered ∧ (breakCommit s).timing = s.timing ∧ (breakCommit s).rx = s.rx ∧
    (breakCommit s).pipe = s.pipe ∧ (breakCommit s).mon = s.mon ∧ (breakCommit s).store = s.store ∧
    (breakCommit s).buf = s.buf ∧ (breakCommit s).eng = s.eng ∧ (breakCommit s).ret = s.ret ∧
    (breakCommit s).region = s.region ∧ (breakCommit s).key = s.key ∧ (breakCommit s).pending = s.pending := by
  unfold breakCommit
  repeat' split
  all_goals simp

@[simp] theorem loaderWrite_frame (p : LoadPhase) :
    (loaderWrite p s).powered = s.powered ∧ (loaderWrite p s).timing = s.timing ∧ (loaderWrite p s).rx = s.rx ∧
    (loaderWrite p s).pipe = s.pipe ∧ (loaderWrite p s).mon = s.mon ∧ (loaderWrite p s).buf = s.buf ∧
    (loaderWrite p s).eng = s.eng ∧ (loaderWrite p s).ret = s.ret ∧ (loaderWrite p s).region = s.region ∧
    (loaderWrite p s).key = s.key ∧ (loaderWrite p s).pending = s.pending := by
  unfold loaderWrite
  repeat' split
  all_goals simp

@[simp] theorem loadEnds_frame (o : StartOutcome) (h : Option ImageHeader) :
    (loadEnds o h s).powered = s.powered ∧ (loadEnds o h s).timing = s.timing ∧ (loadEnds o h s).rx = s.rx ∧
    (loadEnds o h s).mon = s.mon ∧ (loadEnds o h s).buf = s.buf ∧ (loadEnds o h s).eng = s.eng ∧
    (loadEnds o h s).ret = s.ret ∧ (loadEnds o h s).key = s.key ∧ (loadEnds o h s).pending = s.pending := by
  unfold loadEnds
  repeat' split
  all_goals simp

@[simp] theorem finishLoad_frame (p : LoadPhase) :
    (finishLoad p s).powered = s.powered ∧ (finishLoad p s).timing = s.timing ∧ (finishLoad p s).rx = s.rx ∧
    (finishLoad p s).mon = s.mon ∧ (finishLoad p s).buf = s.buf ∧ (finishLoad p s).eng = s.eng ∧
    (finishLoad p s).ret = s.ret ∧ (finishLoad p s).key = s.key ∧ (finishLoad p s).pending = s.pending := by
  unfold finishLoad
  repeat' split
  all_goals simp

@[simp] theorem fetchFor_frame (p : InPixel) (n : Nat) :
    (fetchFor p n s).powered = s.powered ∧ (fetchFor p n s).timing = s.timing ∧ (fetchFor p n s).rx = s.rx ∧
    (fetchFor p n s).pipe = s.pipe ∧ (fetchFor p n s).mon = s.mon ∧ (fetchFor p n s).eng = s.eng ∧
    (fetchFor p n s).ret = s.ret ∧ (fetchFor p n s).region = s.region ∧ (fetchFor p n s).key = s.key ∧
    (fetchFor p n s).life = s.life ∧ (fetchFor p n s).pending = s.pending := by
  induction n generalizing s with
  | zero => simp [fetchFor]
  | succ n ih =>
    unfold fetchFor
    split
    · simp
    · split
      · simpa using ih (fetchRead s)
      · simp

@[simp] theorem drainList_frame (l : List InPixel) :
    (drainList l s).powered = s.powered ∧ (drainList l s).timing = s.timing ∧ (drainList l s).rx = s.rx ∧
    (drainList l s).eng = s.eng ∧ (drainList l s).ret = s.ret ∧ (drainList l s).region = s.region ∧
    (drainList l s).key = s.key ∧ (drainList l s).life = s.life ∧ (drainList l s).pending = s.pending := by
  induction l generalizing s with
  | nil => simp [drainList]
  | cons p l ih => simp [drainList, ih]

@[simp] theorem drain_frame :
    (drain s).powered = s.powered ∧ (drain s).rx = s.rx ∧ (drain s).eng = s.eng ∧ (drain s).ret = s.ret ∧
    (drain s).region = s.region ∧ (drain s).key = s.key ∧ (drain s).life = s.life ∧
    (drain s).pending = s.pending := by simp [drain]

@[simp] theorem startUpBegin_pending (now : Nat) : (startUpBegin now s).pending = s.pending := by simp [startUpBegin]

@[simp] theorem cutPower_pending (m : Bool) (w : Word) (l : List Word) :
    (cutPower m w l s).pending = s.pending := by simp [cutPower]

end Sys2Proof.Machine
end

