-- ==== Sys2Proof/Laws/Memory.lean ====
section
/-! SUPPORT. Sparse memories: what a read gives after a write, and that every operation keeps the canonical form. -/

namespace Sys2Proof.Machine

variable {α : Type} [DecidableEq α] {d : α} {m : Memory α}

/-- A canonical memory whose addresses start at `lo` or above reads as unlisted below it. -/
theorem Memory.read_below {lo a : Nat} (h : Memory.wfFrom d lo m = true) (ha : a < lo) : m.read d a = d := by
  induction m generalizing lo with
  | nil => rfl
  | cons c m ih =>
    obtain ⟨b, v⟩ := c
    simp only [Memory.wfFrom, Bool.and_eq_true, decide_eq_true_eq] at h
    have hb : a ≠ b := by omega
    simp only [Memory.read, hb, if_false]
    exact ih h.2 (by omega)

/-- A memory canonical from one address is canonical from every lower one. -/
theorem Memory.wfFrom_mono {lo hi : Nat} (h : Memory.wfFrom d hi m = true) (hl : lo ≤ hi) :
    Memory.wfFrom d lo m = true := by
  cases m with
  | nil => rfl
  | cons c m =>
    obtain ⟨b, v⟩ := c
    simp only [Memory.wfFrom, Bool.and_eq_true, decide_eq_true_eq] at h ⊢
    exact ⟨⟨by omega, h.1.2⟩, h.2⟩

theorem Memory.wfFrom_cell {lo a : Nat} {v : α} (h : Memory.wfFrom d (a + 1) m = true) (ha : lo ≤ a) :
    Memory.wfFrom d lo (Memory.cell d a v m) = true := by
  unfold Memory.cell
  split
  · exact Memory.wfFrom_mono h (by omega)
  · simp_all [Memory.wfFrom]

theorem Memory.wfFrom_write {lo a : Nat} {v : α} (h : Memory.wfFrom d lo m = true) (ha : lo ≤ a) :
    Memory.wfFrom d lo (Memory.write d m a v) = true := by
  induction m generalizing lo with
  | nil => exact Memory.wfFrom_cell rfl ha
  | cons c m ih =>
    obtain ⟨b, w⟩ := c
    have h' := h
    simp only [Memory.wfFrom, Bool.and_eq_true, decide_eq_true_eq] at h'
    unfold Memory.write
    split
    · refine Memory.wfFrom_cell ?_ ha
      simp only [Memory.wfFrom, Bool.and_eq_true, decide_eq_true_eq]
      exact ⟨⟨by omega, h'.1.2⟩, h'.2⟩
    · split
      · subst_vars
        exact Memory.wfFrom_cell h'.2 ha
      · simp only [Memory.wfFrom, Bool.and_eq_true, decide_eq_true_eq]
        exact ⟨h'.1, ih h'.2 (by omega)⟩

/-- A write keeps the canonical form. -/
theorem Memory.wf_write {a : Nat} {v : α} (h : Memory.wf d m = true) : Memory.wf d (Memory.write d m a v) = true :=
  Memory.wfFrom_write h (Nat.zero_le a)

/-- Writes of consecutive cells keep the canonical form. -/
theorem Memory.wf_writeList {a : Nat} {vs : List α} (h : Memory.wf d m = true) :
    Memory.wf d (Memory.writeList d m a vs) = true := by
  induction vs generalizing m a with
  | nil => exact h
  | cons v vs ih => exact ih (Memory.wf_write h)

theorem Memory.wfFrom_filter {lo : Nat} (p : Nat × α → Bool) (h : Memory.wfFrom d lo m = true) :
    Memory.wfFrom d lo (m.filter p) = true := by
  induction m generalizing lo with
  | nil => rfl
  | cons c m ih =>
    obtain ⟨b, v⟩ := c
    have h' := h
    simp only [Memory.wfFrom, Bool.and_eq_true, decide_eq_true_eq] at h'
    rw [List.filter_cons]
    split
    · simp only [Memory.wfFrom, Bool.and_eq_true, decide_eq_true_eq]
      exact ⟨h'.1, ih h'.2⟩
    · exact ih (Memory.wfFrom_mono h'.2 (by omega))

/-- Clearing a range keeps the canonical form. -/
theorem Memory.wf_clear {lo hi : Nat} (h : Memory.wf d m = true) : Memory.wf d (Memory.clear m lo hi) = true :=
  Memory.wfFrom_filter _ h

/-- A write to one address leaves every other one as it was. -/
theorem Memory.read_write_ne {a a' : Nat} {v : α} (h : a' ≠ a) (hv : Memory.wf d m = true) :
    (Memory.write d m a v).read d a' = m.read d a' := by
  have key : ∀ {lo : Nat} {m : Memory α}, Memory.wfFrom d lo m = true →
      (Memory.write d m a v).read d a' = m.read d a' := by
    intro lo m hm
    induction m generalizing lo with
    | nil => unfold Memory.write Memory.cell; split <;> simp [Memory.read, h]
    | cons c m ih =>
      obtain ⟨b, w⟩ := c
      simp only [Memory.wfFrom, Bool.and_eq_true, decide_eq_true_eq] at hm
      unfold Memory.write
      split
      · unfold Memory.cell
        split <;> simp [Memory.read, h]
      · split
        · unfold Memory.cell
          split <;> simp_all [Memory.read]
        · simp only [Memory.read]
          rw [ih hm.2]
  exact key hv

/-- A write is what a read of its address then gives. -/
theorem Memory.read_write_same {a : Nat} {v : α} (hm : Memory.wf d m = true) :
    (Memory.write d m a v).read d a = v := by
  have key : ∀ {lo : Nat} {m : Memory α}, Memory.wfFrom d lo m = true →
      (Memory.write d m a v).read d a = v := by
    intro lo m hm
    induction m generalizing lo with
    | nil => unfold Memory.write Memory.cell; split <;> simp_all [Memory.read]
    | cons c m ih =>
      obtain ⟨b, w⟩ := c
      simp only [Memory.wfFrom, Bool.and_eq_true, decide_eq_true_eq] at hm
      unfold Memory.write
      split
      · unfold Memory.cell
        split
        · have : a ≠ b := by omega
          simp only [Memory.read, this, if_false]
          rw [Memory.read_below hm.2 (by omega)]
          simp_all
        · simp [Memory.read]
      · split
        · unfold Memory.cell
          split
          · rw [Memory.read_below hm.2 (by omega)]
            simp_all
          · simp [Memory.read]
        · simp only [Memory.read]
          rw [if_neg (by assumption)]
          exact ih hm.2
  exact key hm

omit [DecidableEq α] in
/-- A read of a cleared range gives what an unlisted address reads as, and of any other address what it was. -/
theorem Memory.read_clear {lo hi a : Nat} :
    (Memory.clear m lo hi).read d a = if lo ≤ a ∧ a < hi then d else m.read d a := by
  induction m with
  | nil => simp [Memory.clear, Memory.read]
  | cons c m ih =>
    obtain ⟨b, v⟩ := c
    simp only [Memory.clear] at ih
    simp only [Memory.clear, List.filter_cons, Memory.read]
    by_cases hb : a = b
    · subst hb
      by_cases hr : lo ≤ a ∧ a < hi
      · rw [if_neg (by simp; omega), ih, if_pos hr, if_pos hr]
      · rw [if_pos (by simp; omega), if_neg hr]
        simp [Memory.read]
    · rw [if_neg hb]
      split
      · simp only [Memory.read, if_neg hb]
        exact ih
      · exact ih

/-- The memories of the reset state are canonical. -/
theorem reset_memories_wf :
    Memory.wf .zero State.reset.store.bankA = true ∧ Memory.wf .zero State.reset.store.bankB = true ∧
      Memory.wf .blank State.reset.key.array = true ∧ Memory.wf 0 State.reset.key.buffer = true ∧
      Memory.wf erasedByte State.reset.life.flash = true := by decide

end Sys2Proof.Machine
end

