-- ==== Sys2Proof/Laws/State.lean ====
section
/-! SUPPORT. The accessors of State's tables after each update of them: banks, geometry records, anchors, profile
entries, slot records. -/

namespace Sys2Proof.Machine

section Store

variable (st : Store) (bank : Bank)

@[simp] theorem Store.words_setWords_same (m : Memory StoredWord) : (st.setWords bank m).words bank = m := by
  cases bank <;> rfl

@[simp] theorem Store.words_setWords_other (m : Memory StoredWord) :
    (st.setWords bank m).words (otherBank bank) = st.words (otherBank bank) := by
  cases bank <;> rfl

@[simp] theorem Store.geometry_setGeometry_same (g : Option Geometry) :
    (st.setGeometry bank g).geometry bank = g := by
  cases bank <;> rfl

@[simp] theorem Store.geometry_setGeometry_other (g : Option Geometry) :
    (st.setGeometry bank g).geometry (otherBank bank) = st.geometry (otherBank bank) := by
  cases bank <;> rfl

@[simp] theorem Store.setWords_frame (m : Memory StoredWord) :
    (st.setWords bank m).geomA = st.geomA ∧ (st.setWords bank m).geomB = st.geomB ∧
    (st.setWords bank m).active = st.active ∧ (st.setWords bank m).activatePending = st.activatePending ∧
    (st.setWords bank m).scrub = st.scrub ∧ (st.setWords bank m).log = st.log := by
  cases bank <;> simp [Store.setWords]

@[simp] theorem Store.setGeometry_frame (g : Option Geometry) :
    (st.setGeometry bank g).bankA = st.bankA ∧ (st.setGeometry bank g).bankB = st.bankB ∧
    (st.setGeometry bank g).active = st.active ∧ (st.setGeometry bank g).activatePending = st.activatePending ∧
    (st.setGeometry bank g).scrub = st.scrub ∧ (st.setGeometry bank g).log = st.log := by
  cases bank <;> simp [Store.setGeometry]

@[simp] theorem Store.writeWord_frame (a : Nat) (w : Word) :
    (st.writeWord bank a w).geomA = st.geomA ∧ (st.writeWord bank a w).geomB = st.geomB ∧
    (st.writeWord bank a w).active = st.active ∧ (st.writeWord bank a w).activatePending = st.activatePending ∧
    (st.writeWord bank a w).scrub = st.scrub ∧ (st.writeWord bank a w).log = st.log := by
  simp [Store.writeWord]

@[simp] theorem otherBank_otherBank : otherBank (otherBank bank) = bank := by cases bank <;> rfl

theorem otherBank_ne : otherBank bank ≠ bank := by cases bank <;> simp [otherBank]

end Store

section Engine

variable (e : Engine) (i : Nat) (a : Anchor)

@[simp] theorem Engine.setAnchor_frame :
    (e.setAnchor i a).queue = e.queue ∧ (e.setAnchor i a).inHand = e.inHand ∧ (e.setAnchor i a).hold = e.hold ∧
    (e.setAnchor i a).holdActivate = e.holdActivate ∧ (e.setAnchor i a).holdKeyLock = e.holdKeyLock ∧
    (e.setAnchor i a).holdCommit = e.holdCommit ∧ (e.setAnchor i a).holdRestart = e.holdRestart ∧
    (e.setAnchor i a).restarting = e.restarting := by
  unfold Engine.setAnchor
  split <;> simp

@[simp] theorem Engine.anchor_zero : e.anchor 0 = ⟨0, .none⟩ := rfl

@[simp] theorem Engine.setAnchor_zero : e.setAnchor 0 a = e := rfl

/-- An anchor that is there reads as written. -/
theorem Engine.anchor_setAnchor_same (h0 : i ≠ 0) (h : i ≤ e.anchors.length) : (e.setAnchor i a).anchor i = a := by
  simp only [Engine.setAnchor, Engine.anchor, h0, if_false]
  simp [List.getD, show i - 1 < e.anchors.length by omega]

/-- Every other anchor reads as before. -/
theorem Engine.anchor_setAnchor_ne {j : Nat} (h : j ≠ i) : (e.setAnchor i a).anchor j = e.anchor j := by
  unfold Engine.setAnchor Engine.anchor
  by_cases h0 : i = 0
  · simp [h0]
  · by_cases j0 : j = 0
    · simp [j0]
    · have : i - 1 ≠ j - 1 := by omega
      simp [h0, j0, List.getD, List.getElem?_set_ne this]

end Engine

section Region

variable (r : Region) (i : Nat) (e : Option Profile)

/-- A profile entry that is there reads as written. -/
theorem Region.entry_set_same (h : i < r.entries.length) : ({ r with entries := r.entries.set i e } : Region).entry i = e := by
  simp [Region.entry, List.getD, h]

/-- Every other entry reads as before. -/
theorem Region.entry_set_ne {j : Nat} (h : j ≠ i) :
    ({ r with entries := r.entries.set i e } : Region).entry j = r.entry j := by
  simp [Region.entry, List.getD, Ne.symm h]

end Region

section Key

variable (k : KeyUnit) (slot : Nat) (r : KeyRecord)

@[simp] theorem KeyUnit.setRecord_frame :
    (k.setRecord slot r).bound = k.bound ∧ (k.setRecord slot r).received = k.received ∧
    (k.setRecord slot r).buffer = k.buffer ∧ (k.setRecord slot r).array = k.array ∧
    (k.setRecord slot r).prog = k.prog := by simp [KeyUnit.setRecord]

@[simp] theorem KeyUnit.unbind_frame :
    k.unbind.records = k.records ∧ k.unbind.array = k.array ∧ k.unbind.prog = k.prog ∧
    k.unbind.bound = none ∧ k.unbind.received = 0 ∧ k.unbind.buffer = [] := by simp [KeyUnit.unbind]

@[simp] theorem KeyUnit.program_frame (i : Nat) (asked stuck : Word) :
    (k.program slot i asked stuck).records = k.records ∧ (k.program slot i asked stuck).bound = k.bound ∧
    (k.program slot i asked stuck).received = k.received ∧ (k.program slot i asked stuck).buffer = k.buffer ∧
    (k.program slot i asked stuck).prog = k.prog := by simp [KeyUnit.program]

/-- A slot record that is there reads as written. -/
theorem KeyUnit.record_setRecord_same (h : slot < k.records.length) : (k.setRecord slot r).record slot = r := by
  simp [KeyUnit.setRecord, KeyUnit.record, List.getD, h]

/-- Every other record reads as before. -/
theorem KeyUnit.record_setRecord_ne {j : Nat} (h : j ≠ slot) : (k.setRecord slot r).record j = k.record j := by
  simp [KeyUnit.setRecord, KeyUnit.record, List.getD, Ne.symm h]

end Key

end Sys2Proof.Machine
end

