-- ==== Sys2Proof/Laws/Ops.lean ====
section
/-! SUPPORT. One lemma for each shared operation, saying once what it can do. -/

namespace Sys2Proof.Machine

variable (s : State)

/-! ### Steps -/

/-- A packet that cannot exist faults; one the engine can take now runs on the queue without it; else nothing
changes. -/
theorem take_spec (p : Packet) (run : State → State) :
    take p run s = .fault .noSuchPacket ∧ payloadOk p.payload = false ∨
    take p run s = .next (run (dequeue s)) ∧ payloadOk p.payload = true ∧ engineReady s = true ∧ isNext p s = true ∨
    take p run s = .next s ∧ payloadOk p.payload = true ∧ (engineReady s && isNext p s) = false := by
  unfold take
  cases h : payloadOk p.payload <;> cases h' : engineReady s <;> cases h'' : isNext p s <;> simp

/-- A step of a station command that answers next either took the packet or did nothing. -/
theorem take_next {p : Packet} {run : State → State} {t : State} (h : take p run s = .next t) :
    t = run (dequeue s) ∨ t = s := by
  obtain ⟨h', _⟩ | ⟨h', _⟩ | ⟨h', _⟩ := take_spec s p run <;> rw [h'] at h <;> cases h
  · exact .inl rfl
  · exact .inr rfl

/-- The packet at hand is taken and run. -/
theorem take_run {p : Packet} (run : State → State) (hp : payloadOk p.payload = true) (hr : engineReady s = true)
    (hn : isNext p s = true) : take p run s = .next (run (dequeue s)) := by simp [take, hp, hr, hn]

/-- An event runs where there is power. -/
theorem event_powered (run : State → State) (h : s.powered = true) : event run s = .next (run s) := by
  simp [event, h]

/-- An event that answers next has run or done nothing. -/
theorem event_next {run : State → State} {t : State} (h : event run s = .next t) : t = run s ∨ t = s := by
  unfold event at h
  split at h <;> cases h
  · exact .inl rfl
  · exact .inr rfl

/-- A command is refused with the first reason, or runs. -/
theorem tested_spec (p : Packet) (g : Gate) (l : List (Bool × Reason)) (run : State → State) :
    (∃ r, refusal g l s = some r ∧ tested p g l run s = refuse p r [] s) ∨
    refusal g l s = none ∧ tested p g l run s = run s := by
  unfold tested
  cases h : refusal g l s
  · exact .inr ⟨rfl, rfl⟩
  · exact .inl ⟨_, rfl, rfl⟩

/-! ### Replies -/

/-- The lane's start leaves the replies as they are. -/
@[simp] theorem startLane_outbox : (startLane s).outbox = s.outbox := by
  unfold startLane
  split <;> simp [State.outbox]

/-- A reply offered is the newest of those that leave. -/
theorem offer_outbox (w : Poster) (r : Reply) : (offer w r s).outbox = s.outbox ++ [r] := by
  unfold offer
  split
  · rename_i h
    simp only [hasRoom, Bool.and_eq_true, List.isEmpty_iff] at h
    rw [startLane_outbox]
    simp [State.outbox, h.2]
  · simp [State.outbox]

/-- A reply posted carries the summary of that moment, and nothing but the return path changes. -/
theorem post_spec (w : Poster) (tag code : Byte) (c : Completion) (l : List Word) :
    (post w tag code c l s).outbox = s.outbox ++ [⟨tag, code, c, s.summary, l⟩] ∧
    post w tag code c l s = { s with ret := (post w tag code c l s).ret } := by
  refine ⟨offer_outbox s w _, ?_⟩
  unfold post offer startLane
  repeat' split
  all_goals rfl

/-- The reply of deferred work is posted at once, or kept until the one of its block that waits has been admitted. -/
theorem posts_postDeferred (w : Poster) (tag code : Byte) (c : Completion) (l : List Word) :
    posts (.next (postDeferred w tag code c l s)) s w tag code c l := by
  refine ⟨_, rfl, ?_, fun h => ?_, fun h => by simp [postDeferred, h]⟩
  · unfold postDeferred
    split
    · exact (post_spec s w tag code c l).2
    · rfl
  · simp only [postDeferred, h, if_true]
    refine ⟨(post_spec s w tag code c l).1, ?_⟩
    unfold post offer startLane
    repeat' split
    all_goals rfl

/-- A COMMIT ABORT in hand completes once the COMMIT reply has been posted; else nothing changes. -/
theorem completeAbort_spec :
    (∃ tag, s.eng.inHand = some (.abort tag) ∧ s.eng.holdCommit = none ∧ (∀ x ∈ s.ret.later, x.poster ≠ .life) ∧
      completeAbort s = post .engine tag 0x81 .done [] { s with eng.inHand := none }) ∨
    completeAbort s = s ∧ ((∀ tag, s.eng.inHand ≠ some (.abort tag)) ∨ s.eng.holdCommit.isSome = true ∨
      ∃ x ∈ s.ret.later, x.poster = .life) := by
  unfold completeAbort
  split
  · rename_i tag h
    split
    · rename_i hc
      simp only [Bool.and_eq_true, Option.isNone_iff_eq_none, List.all_eq_true, bne_iff_ne] at hc
      exact .inl ⟨tag, h, hc.1, hc.2, rfl⟩
    · rename_i hc
      refine .inr ⟨rfl, .inr ?_⟩
      by_cases hn : s.eng.holdCommit = none
      · simpa [hn] using hc
      · exact .inl (Option.isSome_iff_ne_none.mpr hn)
  · rename_i h
    exact .inr ⟨rfl, .inl h⟩

/-- The engine after a cut of the frame in progress is what the line cut short leaves (R162). -/
theorem cutLine_eq (f : RxFrame) : cutLine f s = { s with eng := s.engineCut f } := by
  unfold cutLine State.engineCut enterHold
  rcases f.dec.state <;> rcases s.eng.hold <;> simp

/-- Hold is entered once: the first record stands. -/
theorem enterHold_spec (c : HoldCause) (tag : Option Byte) (row addr : Option Nat) :
    (∃ h, s.eng.hold = some h ∧ enterHold c tag row addr s = s) ∨
    s.eng.hold = none ∧ (enterHold c tag row addr s).eng.hold = some ⟨c, tag, row, addr, s.timing.frameNumber⟩ := by
  unfold enterHold
  cases h : s.eng.hold
  · exact .inr ⟨rfl, rfl⟩
  · exact .inl ⟨_, rfl, by simp⟩

/-- A post is an answer: the state it is posted in, with the reply as the newest. -/
theorem answers_post (w : Poster) (tag code : Byte) (c : Completion) (l : List Word) {u v : State} (h : u = v) :
    answers (.next (post w tag code c l u)) v tag code c l := by
  subst h
  exact ⟨_, rfl, (post_spec u w tag code c l).2, (post_spec u w tag code c l).1⟩

/-- A packet that the engine can take is taken. -/
theorem take_canTake {p : Packet} (run : State → State) (h : s.canTake p = true) :
    take p run s = .next (run (dequeue s)) := by
  simp only [State.canTake, Bool.and_eq_true] at h
  exact take_run s run h.1.1 h.1.2 h.2

@[simp] theorem dequeue_taken : dequeue s = s.taken := rfl

/-- An engine that is not held passes steps 1 to 3 of R148 in FACTORY with every command it serves there. -/
theorem gateRefusal_factory (g : Gate) (h : s.life.lifecycle = .factory) (hold : s.eng.hold = none) (ha : g ≠ .abort)
    (hr : g ≠ .reopen) : gateRefusal g s = none := by
  cases g <;> simp_all [gateRefusal, lifecycleRefusal]

/-- A command that changes nothing passes steps 1 to 3 of R148 outside STARTING. -/
theorem gateRefusal_plain (h : s.life.lifecycle ≠ .starting) : gateRefusal .plain s = none := by
  simp [gateRefusal, lifecycleRefusal, Gate.changes, h]

/-! ### Banks -/

/-- A word written reads clean, with its spare bits 0. -/
theorem wordAt_writeWord_same (st : Store) (bank : Bank) (a : Nat) (w : Word)
    (h : Memory.wf .zero (st.words bank) = true) : (st.writeWord bank a w).wordAt bank a = ⟨stripSpare w, 0⟩ := by
  simp [Store.writeWord, Store.wordAt, Memory.read_write_same h]

/-- Every other word of the bank is as before. -/
theorem wordAt_writeWord_ne (st : Store) (bank : Bank) {a b : Nat} (w : Word)
    (h : Memory.wf .zero (st.words bank) = true) (hb : b ≠ a) :
    (st.writeWord bank a w).wordAt bank b = st.wordAt bank b := by
  simp [Store.writeWord, Store.wordAt, Memory.read_write_ne hb h]

/-- The other bank is as before. -/
theorem wordAt_writeWord_other (st : Store) (bank : Bank) (a b : Nat) (w : Word) :
    (st.writeWord bank a w).wordAt (otherBank bank) b = st.wordAt (otherBank bank) b := by
  simp [Store.writeWord, Store.wordAt]

/-! ### The row buffer -/

/-- A fetch that begins takes the first slot that its row may take. -/
theorem place_eq {b : RowBuffer} {bank : Bank} {row k : Nat} {o : Option Slot} (h : b.slots[k]? = some o)
    (ht : takesSlot bank row o) (hm : ∀ m < k, ∀ o', b.slots[m]? = some o' → ¬ takesSlot bank row o') :
    b.place bank row = some k := by
  obtain ⟨hk, hget⟩ := List.getElem?_eq_some_iff.mp h
  unfold RowBuffer.place
  split <;> rename_i hr <;> rw [List.findIdx?_eq_some_iff_getElem] <;>
    refine ⟨hk, ?_, fun j hj => ?_⟩ <;> simp only [takesSlot, hr, if_true, if_false] at ht hm
  · simp [hget, ht]
  · simpa [Option.isNone_iff_eq_none] using hm j hj (b.slots[j]) (by simp)
  · obtain ⟨sl, rfl, h1, h2⟩ := ht
    simp [hget, Slot.tagged, h1]; omega
  · have := hm j hj (b.slots[j]) (by simp)
    cases hb : b.slots[j] with
    | none => simp
    | some sl =>
      simp only [hb, Option.some.injEq, exists_eq_left', not_and] at this
      simp only [Option.any_some, Slot.tagged, Bool.and_eq_true, beq_iff_eq, not_and]
      intro h1
      have := this h1
      omega

end Sys2Proof.Machine
end

