-- ==== Sys2Proof/Laws/PerInstr.lean ====
section
/-! SUPPORT. The family CodeRow, command by command: the packet of a command that can exist is one that a service line
can carry (R160), and its code names a command unless the command is UNKNOWN_CODE (R148). -/

namespace Sys2Proof.Laws

/-- The packet of a command that can exist has 1 to 128 payload words, and its code is one of the 31 of the manual just
where the command is not UNKNOWN_CODE. -/
def CodeRow.Statement (i : Instr) : Prop :=
  ∀ p, i.packet = some p → i.wf = true →
    payloadOk p.payload = true ∧ (knownCode p.code = true ↔ ∀ tag code l, i ≠ .unknownCode tag code l)

namespace CodeRow

theorem status (tag : Byte) (payload : List Word) : Statement (.status tag payload) := by
  intro p hp hw
  obtain rfl := Option.some.inj hp
  exact ⟨hw, fun _ _ _ _ => nofun, fun _ => rfl⟩

theorem release (tag : Byte) (payload : List Word) : Statement (.release tag payload) := by
  intro p hp hw
  obtain rfl := Option.some.inj hp
  exact ⟨hw, fun _ _ _ _ => nofun, fun _ => rfl⟩

theorem restart (tag : Byte) (payload : List Word) : Statement (.restart tag payload) := by
  intro p hp hw
  obtain rfl := Option.some.inj hp
  exact ⟨hw, fun _ _ _ _ => nofun, fun _ => rfl⟩

theorem anchorSet (tag : Byte) (payload : List Word) : Statement (.anchorSet tag payload) := by
  intro p hp hw
  obtain rfl := Option.some.inj hp
  exact ⟨hw, fun _ _ _ _ => nofun, fun _ => rfl⟩

theorem anchorRead (tag : Byte) (payload : List Word) : Statement (.anchorRead tag payload) := by
  intro p hp hw
  obtain rfl := Option.some.inj hp
  exact ⟨hw, fun _ _ _ _ => nofun, fun _ => rfl⟩

theorem nodeWrite (tag : Byte) (payload : List Word) : Statement (.nodeWrite tag payload) := by
  intro p hp hw
  obtain rfl := Option.some.inj hp
  exact ⟨hw, fun _ _ _ _ => nofun, fun _ => rfl⟩

theorem nodeRead (tag : Byte) (payload : List Word) : Statement (.nodeRead tag payload) := by
  intro p hp hw
  obtain rfl := Option.some.inj hp
  exact ⟨hw, fun _ _ _ _ => nofun, fun _ => rfl⟩

theorem nodeFill (tag : Byte) (payload : List Word) : Statement (.nodeFill tag payload) := by
  intro p hp hw
  obtain rfl := Option.some.inj hp
  exact ⟨hw, fun _ _ _ _ => nofun, fun _ => rfl⟩

theorem geometrySet (tag : Byte) (payload : List Word) : Statement (.geometrySet tag payload) := by
  intro p hp hw
  obtain rfl := Option.some.inj hp
  exact ⟨hw, fun _ _ _ _ => nofun, fun _ => rfl⟩

theorem geometryRead (tag : Byte) (payload : List Word) : Statement (.geometryRead tag payload) := by
  intro p hp hw
  obtain rfl := Option.some.inj hp
  exact ⟨hw, fun _ _ _ _ => nofun, fun _ => rfl⟩

theorem activate (tag : Byte) (payload : List Word) : Statement (.activate tag payload) := by
  intro p hp hw
  obtain rfl := Option.some.inj hp
  exact ⟨hw, fun _ _ _ _ => nofun, fun _ => rfl⟩

theorem logRead (tag : Byte) (payload : List Word) : Statement (.logRead tag payload) := by
  intro p hp hw
  obtain rfl := Option.some.inj hp
  exact ⟨hw, fun _ _ _ _ => nofun, fun _ => rfl⟩

theorem logClear (tag : Byte) (payload : List Word) : Statement (.logClear tag payload) := by
  intro p hp hw
  obtain rfl := Option.some.inj hp
  exact ⟨hw, fun _ _ _ _ => nofun, fun _ => rfl⟩

theorem pipeSet (tag : Byte) (payload : List Word) : Statement (.pipeSet tag payload) := by
  intro p hp hw
  obtain rfl := Option.some.inj hp
  exact ⟨hw, fun _ _ _ _ => nofun, fun _ => rfl⟩

theorem pipeRead (tag : Byte) (payload : List Word) : Statement (.pipeRead tag payload) := by
  intro p hp hw
  obtain rfl := Option.some.inj hp
  exact ⟨hw, fun _ _ _ _ => nofun, fun _ => rfl⟩

theorem windowSet (tag : Byte) (payload : List Word) : Statement (.windowSet tag payload) := by
  intro p hp hw
  obtain rfl := Option.some.inj hp
  exact ⟨hw, fun _ _ _ _ => nofun, fun _ => rfl⟩

theorem reportRead (tag : Byte) (payload : List Word) : Statement (.reportRead tag payload) := by
  intro p hp hw
  obtain rfl := Option.some.inj hp
  exact ⟨hw, fun _ _ _ _ => nofun, fun _ => rfl⟩

theorem conditionsRead (tag : Byte) (payload : List Word) : Statement (.conditionsRead tag payload) := by
  intro p hp hw
  obtain rfl := Option.some.inj hp
  exact ⟨hw, fun _ _ _ _ => nofun, fun _ => rfl⟩

theorem captureRead (tag : Byte) (payload : List Word) : Statement (.captureRead tag payload) := by
  intro p hp hw
  obtain rfl := Option.some.inj hp
  exact ⟨hw, fun _ _ _ _ => nofun, fun _ => rfl⟩

theorem captureClear (tag : Byte) (payload : List Word) : Statement (.captureClear tag payload) := by
  intro p hp hw
  obtain rfl := Option.some.inj hp
  exact ⟨hw, fun _ _ _ _ => nofun, fun _ => rfl⟩

theorem profileWrite (tag : Byte) (payload : List Word) : Statement (.profileWrite tag payload) := by
  intro p hp hw
  obtain rfl := Option.some.inj hp
  exact ⟨hw, fun _ _ _ _ => nofun, fun _ => rfl⟩

theorem profileRead (tag : Byte) (payload : List Word) : Statement (.profileRead tag payload) := by
  intro p hp hw
  obtain rfl := Option.some.inj hp
  exact ⟨hw, fun _ _ _ _ => nofun, fun _ => rfl⟩

theorem regionSelect (tag : Byte) (payload : List Word) : Statement (.regionSelect tag payload) := by
  intro p hp hw
  obtain rfl := Option.some.inj hp
  exact ⟨hw, fun _ _ _ _ => nofun, fun _ => rfl⟩

theorem keyOpen (tag : Byte) (payload : List Word) : Statement (.keyOpen tag payload) := by
  intro p hp hw
  obtain rfl := Option.some.inj hp
  exact ⟨hw, fun _ _ _ _ => nofun, fun _ => rfl⟩

theorem keyData (tag : Byte) (payload : List Word) : Statement (.keyData tag payload) := by
  intro p hp hw
  obtain rfl := Option.some.inj hp
  exact ⟨hw, fun _ _ _ _ => nofun, fun _ => rfl⟩

theorem keyLock (tag : Byte) (payload : List Word) : Statement (.keyLock tag payload) := by
  intro p hp hw
  obtain rfl := Option.some.inj hp
  exact ⟨hw, fun _ _ _ _ => nofun, fun _ => rfl⟩

theorem keyAbandon (tag : Byte) (payload : List Word) : Statement (.keyAbandon tag payload) := by
  intro p hp hw
  obtain rfl := Option.some.inj hp
  exact ⟨hw, fun _ _ _ _ => nofun, fun _ => rfl⟩

theorem keyQuery (tag : Byte) (payload : List Word) : Statement (.keyQuery tag payload) := by
  intro p hp hw
  obtain rfl := Option.some.inj hp
  exact ⟨hw, fun _ _ _ _ => nofun, fun _ => rfl⟩

theorem commit (tag : Byte) (payload : List Word) : Statement (.commit tag payload) := by
  intro p hp hw
  obtain rfl := Option.some.inj hp
  exact ⟨hw, fun _ _ _ _ => nofun, fun _ => rfl⟩

theorem commitAbort (tag : Byte) (payload : List Word) : Statement (.commitAbort tag payload) := by
  intro p hp hw
  obtain rfl := Option.some.inj hp
  exact ⟨hw, fun _ _ _ _ => nofun, fun _ => rfl⟩

theorem reopen (tag : Byte) (payload : List Word) : Statement (.reopen tag payload) := by
  intro p hp hw
  obtain rfl := Option.some.inj hp
  exact ⟨hw, fun _ _ _ _ => nofun, fun _ => rfl⟩

theorem unknownCode (tag code : Byte) (payload : List Word) : Statement (.unknownCode tag code payload) := by
  intro p hp hw
  obtain rfl := Option.some.inj hp
  simp only [Instr.wf, Bool.and_eq_true, Bool.not_eq_true'] at hw
  exact ⟨hw.1, fun h => by simp [hw.2] at h, fun h => absurd rfl (h _ _ _)⟩

theorem powerOn (now : Nat) : Statement (.powerOn now) := by
  nofun

theorem powerRemoval (keyMark : Bool) (keyBits : Word) (flashBits : List Word) :
    Statement (.powerRemoval keyMark keyBits flashBits) := by
  nofun

theorem storageFault (bank : Bank) (address bit : Nat) : Statement (.storageFault bank address bit) := by
  nofun

theorem inputFrameStart (now : Nat) : Statement (.inputFrameStart now) := by
  nofun

theorem rowEnd : Statement (.rowEnd) := by
  nofun

theorem inputFrameEnd : Statement (.inputFrameEnd) := by
  nofun

theorem linkLoss : Statement (.linkLoss) := by
  nofun

theorem pixelReceived (r g b : BitVec 12) : Statement (.pixelReceived r g b) := by
  nofun

theorem pixelProcess : Statement (.pixelProcess) := by
  nofun

theorem deadlineExpiry : Statement (.deadlineExpiry) := by
  nofun

theorem freeRunFrameEnd : Statement (.freeRunFrameEnd) := by
  nofun

theorem fetchWordRead : Statement (.fetchWordRead) := by
  nofun

theorem scrubWriteBack : Statement (.scrubWriteBack) := by
  nofun

theorem engineWordWrite : Statement (.engineWordWrite) := by
  nofun

theorem engineWordRead : Statement (.engineWordRead) := by
  nofun

theorem commitReaderWord : Statement (.commitReaderWord) := by
  nofun

theorem flashOperationEnd (error : Bool) (left : List Word) : Statement (.flashOperationEnd error left) := by
  nofun

theorem keyWordProgrammed (stuck : Word) : Statement (.keyWordProgrammed stuck) := by
  nofun

theorem keyVerifyEnd : Statement (.keyVerifyEnd) := by
  nofun

theorem keyArrayScanEnd : Statement (.keyArrayScanEnd) := by
  nofun

theorem loaderWordWrite (readFails : Bool) : Statement (.loaderWordWrite readFails) := by
  nofun

theorem startUpLoadEnd (readFails : Bool) : Statement (.startUpLoadEnd readFails) := by
  nofun

theorem replyTransmissionEnd (now : Nat) : Statement (.replyTransmissionEnd now) := by
  nofun

theorem freeRunPixelSent : Statement (.freeRunPixelSent) := by
  nofun

theorem keyArrayStorageFault (slot word bit : Nat) : Statement (.keyArrayStorageFault slot word bit) := by
  nofun

end CodeRow

end Sys2Proof.Laws
end

