-- ==== Sys2Proof/Tests/Slice0.lean ====
section
/-! SUPPORT. The model's own tests. Expected results come from the manual's worked examples and tables, or are worked out
by hand from its rules; each test names its source. The witnesses of the statements' hypotheses stand at the end. -/

namespace Sys2Proof.Tests

-- One test after another: in the package as one text, tests checked side by side would each hold a thread.
set_option Elab.async false

open Machine

/-! ### Helpers -/

/-- The part after a start-up that found a blank flash: FACTORY, nothing set. -/
def factory : State :=
  { State.reset with life := { State.reset.life with lifecycle := .factory, outcome := .blank, startUp := .idle } }

/-- The state an answer gives, or the state before. -/
def after (o : Answer) (s : State) : State :=
  match o with
  | .next t => t
  | _ => s

/-- The state after one command. -/
def did (s : State) (c : Instr) : State := after (exec c s) s

/-- The state after commands. -/
def didAll (s : State) (cs : List Instr) : State := cs.foldl did s

/-- The newest reply: its completion and payload. -/
def newest (s : State) : Option (Completion × List Word) :=
  s.outbox.getLast?.map fun r => (r.completion, r.payload)

/-- The reply that one command draws. -/
def answer (s : State) (c : Instr) : Option (Completion × List Word) := newest (did s c)

/-- The answer is a fault. -/
def faults (o : Answer) : Bool :=
  match o with
  | .fault _ => true
  | _ => false

/-! ### Commands that cannot exist (WellFormed) -/

/-- R160: 1 to 128 payload words. R148: UNKNOWN_CODE carries a code that names no command. R63, R116: the bits there
are. -/
theorem test_ill_formed_refused :
    [Instr.status 1 [], .commit 1 (List.replicate 129 0), .unknownCode 1 0x82 [0], .unknownCode 1 0x83 [],
      .storageFault .a 786432 0, .storageFault .b 0 39, .keyArrayStorageFault 24 2 0, .keyArrayStorageFault 0 260 0,
      .keyArrayStorageFault 0 2 32, .powerRemoval false 0 (List.replicate 1025 0),
      .flashOperationEnd false (List.replicate 1025 0)].all (fun c => !c.wf) = true := by decide +kernel

theorem test_well_formed_taken :
    [Instr.status 1 [0], .commit 1 (List.replicate 128 0), .unknownCode 1 0x83 [0], .storageFault .a 786431 38,
      .keyArrayStorageFault 23 259 31, .powerOn 0].all Instr.wf = true := by decide +kernel

theorem test_ill_formed_faults :
    (faults (exec (.status 1 []) factory) && faults (exec (.unknownCode 1 0x82 [0]) factory) &&
      faults (exec (.storageFault .a 786432 0) factory) && faults (exec (.keyArrayStorageFault 0 260 0) factory)) =
      true := by decide +kernel

/-! ### Formats (Chapter 11) -/

/-- The published check values of these two CRC parameter sets, over the ASCII digits 1 to 9. -/
theorem test_crcs :
    crc16 [0x31, 0x32, 0x33, 0x34, 0x35, 0x36, 0x37, 0x38, 0x39] = 0x29B1 ∧
      crc32 [0x31, 0x32, 0x33, 0x34, 0x35, 0x36, 0x37, 0x38, 0x39] = 0x0376E6E7 := by decide +kernel

/-- R165: the first byte is the most significant. -/
theorem test_byte_order : wordsBytes [0x11223344, 0x55667788] = [0x11, 0x22, 0x33, 0x44, 0x55, 0x66, 0x77, 0x88] ∧
    bytesWords [0x11, 0x22, 0x33, 0x44] = [0x11223344] ∧ signedBytes 290 1023 5 = [1, 0x22, 3, 0xFF, 0, 5] := by
  decide +kernel

/-- No row of the opcode table has bits (log 35). -/
theorem test_no_word_decodes : decodeTableWord 32 0x01000000 = none ∧
    (State.reset.withFetchWord 32 1).pending = [] := by decide +kernel

/-! ### Correction arithmetic (the examples of R2, R7, R26, R27, R35, R38, R42 and Section 2.10) -/

/-- "Example: extension" of Section 1.1. -/
theorem test_extension :
    extend .d8 255 = 16383 ∧ extend .d8 128 = 8224 ∧ extend .d10 1023 = 16383 ∧ extend .d10 300 = 4804 ∧
      extend .d10 1 = 16 ∧ extend .d12 4095 = 16383 ∧ extend .d12 2048 = 8194 ∧
      inputValue .d10 0x0AB = 42 ∧ extend .d10 42 = 672 := by decide +kernel

/-- Table 26 and the example of R65. -/
theorem test_geometry_counts :
    nodeCount 3840 8 = 481 ∧ nodeCount 2160 8 = 271 ∧ nodeCount 7680 8 = 961 ∧ nodeCount 4320 8 = 541 ∧
      nodeCount 2049 16 = 129 ∧ (Geometry.mk 3840 2160 16 3 1 [2048, 8192, 14336]).count = 98328 ∧
      (Geometry.mk 3840 2160 8 6 0 [1, 2, 3, 4, 5, 6]).valid = true ∧
      (Geometry.mk 7680 4320 8 2 0 [2048, 12288]).capacityOk = false := by decide +kernel

/-- The examples of R27: the last column, beyond it, and below the last row. -/
theorem test_node_selection :
    axisOf 3839 16 240 = ⟨239, 240, 15⟩ ∧ axisOf 3845 16 240 = ⟨240, 240, 5⟩ ∧ axisOf 2176 16 135 = ⟨135, 135, 0⟩ ∧
      axisOf 2048 16 128 = ⟨128, 128, 0⟩ := by decide +kernel

/-- The example of R35. -/
theorem test_halves_away_from_zero : roundAway 13 2 = 7 ∧ roundAway (-13) 2 = -7 ∧ roundAway (-27) 4 = -7 := by
  decide +kernel

/-- The examples of R38, R41 and R42. -/
theorem test_gain_and_squeeze :
    applyGain 1000 2050 = 500 ∧ squeeze .nearest .d10 0 0 8200 = 513 ∧ squeeze .truncate .d10 0 0 8200 = 512 ∧
      squeeze .nearest .d8 0 0 16383 = 255 ∧ squeeze .nearest .d8 0 0 16351 = 255 ∧
      squeeze .ordered .d8 2210 977 15000 = 235 := by decide +kernel

/-- A look that gives listed deltas at node column, node row and plane, one channel's field, and zero elsewhere. -/
def lookOf (shift : Nat) (l : List ((Nat × Nat × Nat) × Int)) : Look := fun j i k =>
  ⟨((l.lookup (i, j, k)).elim 0 fun d => (BitVec.ofInt 10 d).setWidth 32) <<< shift, false⟩

/-- The live context of the worked cases: region 3 of the example of R14. -/
def caseContext (g : Geometry) (din dout : Depth) : LiveContext :=
  { LiveContext.start with
    mode := .full, din := din, dout := dout, ceiling := 15000, gains := ⟨3900, 4096, 4010⟩, geometry := some g }

/-- Case 1: a blend between two planes. -/
def caseOne : ChainResult :=
  chain (caseContext ⟨3840, 2160, 16, 3, 1, [2048, 8192, 14336]⟩ .d10 .d10)
    (lookOf 20 [((2, 1, 0), 40), ((3, 1, 0), 48), ((2, 2, 0), 36), ((3, 2, 0), 44),
      ((2, 1, 1), 20), ((3, 1, 1), 24), ((2, 2, 1), 16), ((3, 2, 1), 28)]) .r 37 20 (extend .d10 300)

theorem test_case_one : caseOne = ⟨4804, some 64, some 4868, [], 4635⟩ ∧
    squeeze .nearest .d10 37 20 4635 = 290 ∧ squeeze .truncate .d10 37 20 4635 = 289 ∧
    squeeze .ordered .d10 37 20 4635 = 290 ∧ (Geometry.mk 3840 2160 16 3 1 [2048, 8192, 14336]).address 1 2 0 = 729 ∧
    (Geometry.mk 3840 2160 16 3 1 [2048, 8192, 14336]).address 2 3 1 = 1456 := by decide +kernel

/-- Case 2: a fade with a negative half. -/
theorem test_case_two :
    chain (caseContext ⟨3840, 2160, 8, 2, 1, [2048, 12288]⟩ .d12 .d8)
      (lookOf 10 [((2, 5, 0), -20), ((3, 5, 0), -12), ((2, 6, 0), -28), ((3, 6, 0), -4)]) .g 19 42 (extend .d12 256) =
      ⟨1024, some (-18), some 1006, [], 1006⟩ ∧ squeeze .nearest .d8 19 42 1006 = 16 ∧
    squeeze .truncate .d8 19 42 1006 = 15 ∧ squeeze .ordered .d8 19 42 1006 = 16 := by decide +kernel

/-- Case 3: a hold with clip and ceiling. -/
theorem test_case_three :
    chain (caseContext ⟨3840, 2160, 16, 3, 1, [2048, 8192, 14336]⟩ .d8 .d8)
      (lookOf 0 [((4, 6, 2), 170), ((5, 6, 2), -300), ((4, 7, 2), 190)]) .b 64 100 (extend .d8 250) =
      ⟨16062, some 350, some 16412, [.clipHigh, .limit], 15000⟩ ∧ squeeze .nearest .d8 64 100 15000 = 234 := by
  decide +kernel

/-- Case 4: a pixel beyond the right-hand edge. -/
theorem test_case_four :
    chain (caseContext ⟨3840, 2160, 16, 1, 1, [4096]⟩ .d10 .d10)
      (lookOf 20 [((240, 62, 0), -25), ((240, 63, 0), -31)]) .r 3845 1003 (extend .d10 512) =
      ⟨8200, some (-58), some 8142, [], 7752⟩ ∧ squeeze .nearest .d10 3845 1003 7752 = 485 ∧
    squeeze .ordered .d10 3845 1003 7752 = 484 := by decide +kernel

/-- "Example: trap values": case 1 with a poisoned word under TRAP gives 300, and δ leaves the word out. -/
theorem test_trap_value :
    let look : Look := fun j i k =>
      if (i, j, k) = (3, 2, 0) then ⟨0x3FFFFFFF, true⟩
      else lookOf 20 [((2, 1, 0), 40), ((3, 1, 0), 48), ((2, 2, 0), 36), ((2, 1, 1), 20), ((3, 1, 1), 24),
        ((2, 2, 1), 16), ((3, 2, 1), 28)] j i k
    let c := { caseContext ⟨3840, 2160, 16, 3, 1, [2048, 8192, 14336]⟩ .d10 .d10 with masks := ⟨true, false, false, false⟩ }
    let r := chain c look .r 37 20 4804
    r.conditions = [.nodeEcc] ∧ outputOf c 37 20 r = 300 := by decide +kernel

/-- The frame mode decisions of Table 7. -/
theorem test_frame_modes :
    let g : Geometry := ⟨3840, 2160, 16, 3, 1, [1, 2, 3]⟩
    decideMode true false .full (some g) (some ⟨3840, 2160⟩) = .freeRun ∧
      decideMode false true .full (some g) (some ⟨3840, 2160⟩) = .bypass ∧
      decideMode false false .full none (some ⟨3840, 2160⟩) = .bypass ∧
      decideMode false false .full (some g) none = .mismatch ∧
      decideMode false false .full (some g) (some ⟨3840, 2164⟩) = .mismatch ∧
      decideMode false false .full (some g) (some ⟨3840, 2160⟩) = .full := by decide +kernel

/-- "Example: applied windows" of R56. -/
theorem test_applied_windows :
    let z : Option Size := some ⟨3840, 2160⟩
    applyWindow .whole z = .rect ⟨0, 0, 3839, 2159⟩ ∧
      applyWindow ⟨1000, 500, 1063, 563⟩ z = .rect ⟨1000, 500, 1063, 563⟩ ∧
      applyWindow ⟨3800, 2100, 3900, 2200⟩ z = .rect ⟨3800, 2100, 3839, 2159⟩ ∧
      applyWindow ⟨4000, 0, 4100, 10⟩ z = .empty ∧ windowWords .empty = [0xFFFFFFFF, 0] := by decide +kernel

/-! ### The monitor (Chapter 3) -/

/-- "Example: capture across two frames": a tolerated CLIP_LOW, then a trapped CLIP_HIGH with LIMIT, twice. -/
theorem test_capture_across_pixels :
    let masks : Marks := ⟨false, false, true, false⟩
    let high : ChainResult := ⟨16000, some 500, some 16500, [.clipHigh, .limit], 15000⟩
    let low : ChainResult := ⟨10, some (-20), some (-10), [.clipLow], 0⟩
    let m := ((Monitor.start.channel 813 masks 100 40 .g low).channel 813 masks 2210 977 .r high).channel 813 masks 2210
      977 .g high
    m.counts = ⟨0, 1, 2, 2⟩ ∧ m.trapped = 2 ∧ m.sticky = ⟨false, true, true, true⟩ ∧
      m.capture = some ⟨813, 2210, 977, .r, .clipHigh, 16000, some 500, some 16500⟩ := by decide +kernel

/-- CONDITIONS READ returns the flags and clears them (R50); CAPTURE CLEAR says "was filled" (R53). -/
theorem test_monitor_reads :
    let s := { factory with mon := { factory.mon with
      sticky := ⟨false, true, true, true⟩
      capture := some ⟨813, 2210, 977, .r, .clipHigh, 16000, some 500, some 16500⟩ } }
    answer s (.conditionsRead 7 [0]) = some (.done, [7]) ∧ (did s (.conditionsRead 7 [0])).mon.sticky.any = false ∧
      answer s (.captureRead 7 [0]) =
        some (.done, [1, 813, 0x08A203D1, 0xC8003E80, 0x01F44074]) ∧
      answer s (.captureClear 7 [0]) = some (.done, [1]) ∧
      answer (did s (.captureClear 7 [0])) (.captureRead 8 [0]) = some (.done, [0]) := by decide +kernel

/-- WINDOW SET (R55), in COMMISSIONED and held too. -/
theorem test_window_set :
    answer factory (.windowSet 1 [0x0FA00000, 0x1004000A]) = some (.done, [0x0FA00000, 0x1004000A]) ∧
      (did factory (.windowSet 1 [0x0FA00000, 0x1004000A])).mon.window = ⟨4000, 0, 4100, 10⟩ ∧
      answer factory (.windowSet 1 [0]) = some (.refused .length, []) := by decide +kernel

/-- REPORT READ (R61): an empty ring gives one word; a free-run frame's report has frame number 1,
mode FREE_RUN and bank none. -/
theorem test_report_read :
    answer factory (.reportRead 1 [0]) = some (.done, [0]) ∧
      ((answer (didAll factory [.deadlineExpiry, .freeRunFrameEnd]) (.reportRead 1 [0])).map fun r => r.2.take 4) =
        some [1, 1, 0x32000000, 0] := by decide +kernel

/-! ### The pipeline's commands (Section 1.3) -/

/-- The PIPE SET of the example of R17: FULL, Din 10, Dout 8, ORDERED, CLIP_HIGH under TRAP. -/
theorem test_pipe_set :
    answer factory (.pipeSet 1 [0xF10A0822]) = some (.done, [0x010A0822]) ∧
      (did factory (.pipeSet 1 [0x010A0822])).pipe.pending.masks = ⟨false, false, true, false⟩ ∧
      answer factory (.pipeSet 1 [0x020A0822, 0]) = some (.refused .format, []) ∧
      answer factory (.pipeSet 1 [0x010A0822, 0]) = some (.refused .length, []) := by decide +kernel

/-- PIPE READ at start-up (R17, Table 11). -/
theorem test_pipe_read :
    answer factory (.pipeRead 1 [0]) =
      some (.done, [0x000A0A00, 16383, 0x10001000, 0x10000000, 0, 0, 0xFFFFFFFF,
        0x000A0A00, 16383, 0x10001000, 0x10000000, 0, 0, 0xFFFFFFFF, 0]) := by decide +kernel

/-! ### Anchors and node commands (Chapter 5) -/

/-- The example of R88: values modulo 2^20; anchor 0 and mode 3 are refused. -/
theorem test_anchor_set :
    answer factory (.anchorSet 1 [0x400, 1048580]) = some (.done, [0x04000004]) ∧
      answer factory (.anchorSet 1 [0x402, 0xFFFFFFFF]) = some (.done, [0x240FFFFF]) ∧
      answer factory (.anchorSet 1 [0x002, 5]) = some (.refused .index, []) ∧
      answer factory (.anchorSet 1 [0x403, 5]) = some (.refused .format, []) := by decide +kernel

theorem test_anchor_read :
    answer (did factory (.anchorSet 1 [0x701, 786000])) (.anchorRead 2 [0]) =
      some (.done, [0x01000000, 0x02000000, 0x03000000, 0x04000000, 0x05000000, 0x06000000, 0x170BFE50]) := by
  decide +kernel

/-- The example of R92: b = x = 3, value 1,000, d = 5, four words to ACTIVE; then the same packet again. -/
theorem test_node_write_twice :
    let s := did factory (.anchorSet 1 [0x301, 1000])
    let one := didAll s (.nodeWrite 2 [0x1B000005, 1, 2, 3, 4] :: List.replicate 4 .engineWordWrite)
    let two := didAll one (.nodeWrite 3 [0x1B000005, 1, 2, 3, 4] :: List.replicate 4 .engineWordWrite)
    newest one = some (.done, [2009]) ∧ (one.eng.anchor 3).value = 1004 ∧ one.store.wordAt .a 2008 = ⟨4, 0⟩ ∧
      newest two = some (.done, [2017]) ∧ two.store.wordAt .a 2013 = ⟨1, 0⟩ := by decide +kernel

/-- "Example: a streamed load with a refused packet": tags 13h, 14h and 15h. -/
theorem test_refused_write_holds :
    let s := didAll factory [.anchorSet 1 [0x301, 120254], .anchorSet 1 [0x600, 700000]]
    let t := did s (.nodeWrite 0x13 (0x5E000000 :: List.replicate 64 0))
    newest t = some (.refused .address, []) ∧
      t.eng.hold = some ⟨.refusal .address, some 0x13, none, some 820254, 0⟩ ∧
      answer t (.nodeWrite 0x14 (0x58000000 :: List.replicate 10 0)) = some (.refused .held, []) ∧
      ((answer t (.anchorRead 0x15 [0])).map fun r => r.2.getD 2 0) = some 0x1301D5BE := by decide +kernel

/-- "Example: a fill loop": packets 24 and 25, whose runs are 4,096 and 24 words from 94,208 and 98,304. -/
theorem test_node_fill :
    let s := did factory (.anchorSet 1 [0x201, 94208])
    let t := did s (.nodeFill 2 [0x50000000, 0, 4120])
    let u := did factory (.anchorSet 1 [0x201, 98326])
    t.eng.inHand = some (.fill ⟨2, .b, 2, 4096, 94208⟩ 0 4096 24) ∧
      newest (didAll u (.nodeFill 3 [0x50000000, 0x4000000C, 2] :: List.replicate 2 .engineWordWrite)) =
        some (.done, [0, 98328]) ∧ residualWord 24 = 0x80000018 := by decide +kernel

/-- NODE READ (R97): a clean word, and one with two faults, marked damaged by bit 30 and given as stored. -/
theorem test_node_read :
    let s := didAll factory [.storageFault .a 5 0, .storageFault .a 5 2]
    newest (didAll s [.nodeRead 1 [4, 2], .engineWordRead, .engineWordRead]) = some (.done, [0, 0x40000005]) ∧
      answer factory (.nodeRead 1 [4, 129]) = some (.refused .length, []) := by decide +kernel

/-- The examples of R100. -/
theorem test_geometry_set :
    answer factory (.geometrySet 1 [0x1E0010E0, 0x00080200, 0x08003000, 0, 0]) = some (.refused .geometry, []) ∧
      answer factory (.geometrySet 1 [0x0F000870, 0x00100301, 0x08002000, 0x20000000, 0]) =
        some (.refused .levels, []) ∧
      answer factory (.geometrySet 1 [0x0F000870, 0x000C0301, 0x00002000, 0x38000000, 0]) =
        some (.refused .geometry, []) ∧
      answer factory (.geometrySet 1 [0x0F000870, 0x00100301, 0x08002000, 0x38000000, 0]) =
        some (.done, [0x80000001, 0x0F000870, 0x00100301, 0x08002000, 0x38000000, 0, 0x00F10088, 98328]) := by
  decide +kernel

theorem test_geometry_read :
    answer factory (.geometryRead 1 [0]) = some (.done, [0]) ∧
      answer factory (.geometryRead 1 [0x40000000]) = some (.done, [1]) ∧
      answer factory (.geometryRead 1 [0x80000000]) = some (.refused .format, []) := by decide +kernel

/-! ### The correction store (Chapter 4) -/

/-- The table of R70: the exchange at the frame start after ACTIVATE, its reply naming bank B and the frame. -/
theorem test_activate :
    let s := did factory (.geometrySet 1 [0x0F000870, 0x00100301, 0x08002000, 0x38000000, 0])
    let t := did s (.activate 2 [0])
    t.store.activatePending = true ∧ t.outbox = s.outbox ∧
      answer t (.nodeWrite 3 [0x40000000, 1]) = some (.refused .busy, []) ∧
      newest (did t (.inputFrameStart 5)) = some (.done, [1, 1]) ∧
      (did t (.inputFrameStart 5)).store.active = .b ∧ answer factory (.activate 2 [0]) = some (.refused .geometry, []) := by
  decide +kernel

/-- Steps 1 to 3, 4 to 7 and 8 of "Example: a scrub, a dropped scrub and an upgrade", with NODE READs as the reader. -/
theorem test_scrub_example :
    let read (a : Word) : List Instr := [.nodeRead 1 [a, 1], .engineWordRead]
    let s3 := didAll factory (.storageFault .a 729 5 :: read 729)
    let s5 := didAll (did s3 .scrubWriteBack) (.storageFault .a 1456 12 :: read 1456)
    let s7 := didAll s5 [.storageFault .a 1456 20, .scrubWriteBack]
    let s8 := didAll s7 (read 1456)
    s3.store.log = [⟨.a, 729, .corrected 5, 0, 1⟩] ∧ s3.store.scrub.length = 1 ∧
      (did s3 .scrubWriteBack).store.wordAt .a 729 = ⟨0, 0⟩ ∧ s5.store.log.length = 2 ∧
      s7.store.scrub = [] ∧ (s7.store.wordAt .a 1456).flips = 0x101000 ∧
      s8.store.log.getLast? = some ⟨.a, 1456, .uncorrectable, 0, 2⟩ := by decide +kernel

/-- LOG READ's entry words (Table 57) and LOG CLEAR's count. -/
theorem test_log_read :
    let s := { factory with store := { factory.store with
      log := [⟨.a, 729, .corrected 5, 3100, 1⟩, ⟨.b, 1456, .uncorrectable, 3101, 3⟩] } }
    answer s (.logRead 1 [0]) = some (.done, [2, 0x20050001, 729, 3100, 0xC0000003, 1456, 3101]) ∧
      answer s (.logClear 1 [0]) = some (.done, [2]) ∧ (did s (.logClear 1 [0])).store.log = [] := by decide +kernel

/-! ### Region profiles (Chapter 6) -/

/-- "Example: fixing a region", steps 2 to 8. -/
theorem test_fixing_a_region :
    let s3 := did factory (.profileWrite 3 [0x03000012, 0x3A980F3C, 0x10000FAA])
    let s4 := did s3 (.regionSelect 4 [0x03000000])
    let s5 := did s4 (.profileWrite 5 [0x05000002, 0x34BC1388, 0x10000ED8])
    let s6 := did s5 (.profileWrite 6 [0x03000052, 0x4E200F6E, 0x10680FAA])
    let s8 := did s6 (.regionSelect 8 [0x05000000])
    answer factory (.regionSelect 2 [0x03000000]) = some (.refused .index, []) ∧
      newest s4 = some (.done, [0x03000080]) ∧ s5.pipe.pending.ceiling = 15000 ∧
      s6.pipe.pending.gains = ⟨3950, 4096, 4010⟩ ∧ s6.pipe.pending.ceiling = 16383 ∧
      newest s8 = some (.done, [0x05000300]) ∧ s8.pipe.pending.ceiling = 13500 ∧
      s8.pipe.pending.gains = ⟨4096, 4096, 3800⟩ := by decide +kernel

theorem test_profile_read :
    answer factory (.profileRead 1 [0x03000000]) = some (.done, [0x03000000]) ∧
      answer (did factory (.profileWrite 3 [0x03000012, 0x3A980F3C, 0x10000FAA])) (.profileRead 1 [0x03000000]) =
        some (.done, [0x03800012, 0x3A980F3C, 0x10000FAA]) ∧
      answer factory (.profileRead 1 [0x10000000]) = some (.refused .index, []) := by decide +kernel

/-! ### Key slots (Chapter 7) -/

/-- The CRC of sixteen zero bytes, which the key of these tests declares. -/
def keyCheck : Word := crc32 (List.replicate 16 0)

/-- A key of class 2 and sixteen zero bytes, opened and staged in slot 2. -/
def staged : State :=
  didAll factory [.keyOpen 0x31 [0x02020010, keyCheck], .keyData 0x32 [0x02000000, 0, 0, 0, 0]]

/-- KEY OPEN reports the state before (R118); a second is BUSY, or SLOT for the slot itself. -/
theorem test_key_open :
    answer factory (.keyOpen 0x31 [0x02020010, 0]) = some (.done, [0x02000000]) ∧
      answer staged (.keyOpen 1 [0x03020010, 0]) = some (.refused .busy, []) ∧
      answer staged (.keyOpen 1 [0x02020010, 0]) = some (.refused .slot, [0x02010000]) ∧
      answer factory (.keyOpen 1 [0x02080010, 0]) = some (.refused .index, []) ∧
      answer factory (.keyOpen 1 [0x02020018, 0]) = some (.refused .length, []) := by decide +kernel

/-- The repeated packet of the example meets ORDER (R119). -/
theorem test_key_data :
    newest staged = some (.done, [16]) ∧
      answer staged (.keyData 0x33 [0x02000000, 0, 0, 0, 0]) = some (.refused .order, []) ∧
      answer staged (.keyData 0x33 [0x02000010, 0]) = some (.refused .length, []) := by decide +kernel

/-- KEY LOCK programs and verifies: slot 2 LOCKED, 0 words failed, class 2 in the locked set. -/
def locked : State :=
  didAll staged (.keyLock 0x36 [0x02000000] :: List.replicate 7 (.keyWordProgrammed 0) ++ [.keyVerifyEnd])

theorem test_key_lock :
    newest locked = some (.done, [0x02030000]) ∧ locked.key.lockedClasses = 4 ∧ locked.key.bound = none ∧
      locked.key.classify 2 = locked.key.record 2 ∧ (did staged (.keyLock 1 [0x02000000])).outbox = staged.outbox := by
  decide +kernel

/-- A bit left clear fails the verify; the void word is programmed and the slot is DAMAGED, one word failed (R125). -/
theorem test_key_lock_fails :
    let s := didAll staged (.keyLock 0x36 [0x02000000] :: .keyWordProgrammed 0x00020000 ::
      List.replicate 6 (.keyWordProgrammed 0) ++ [.keyVerifyEnd, .keyWordProgrammed 0])
    newest s = some (.failed .program, [0x02040001]) ∧ (s.key.record 2).state = .damaged ∧
      s.key.classify 2 = s.key.record 2 := by decide +kernel

/-- MISMATCH carries the CRC computed and empties the slot (R120). -/
theorem test_key_mismatch :
    let s := didAll factory [.keyOpen 0x31 [0x02020010, 0x12345678], .keyData 0x32 [0x02000000, 0, 0, 0, 0]]
    answer s (.keyLock 1 [0x02000000]) = some (.refused .mismatch, [keyCheck]) ∧
      ((did s (.keyLock 1 [0x02000000])).key.record 2).state = .empty := by decide +kernel

theorem test_key_abandon_and_query :
    answer staged (.keyAbandon 1 [0x02000000]) = some (.done, [16]) ∧
      ((did staged (.keyAbandon 1 [0x02000000])).key.record 2) = ⟨.empty, none⟩ ∧
      answer locked (.keyAbandon 1 [0x02000000]) = some (.refused .slot, []) ∧
      answer staged (.keyQuery 1 [0x02000000]) = some (.done, [0x11D00804, keyCheck]) ∧
      answer locked (.keyQuery 1 [0x18000000]) = some (.refused .index, []) := by decide +kernel

/-- A set bit in a data word that a key does not ask for (R116), and what does not change (log 27). -/
theorem test_key_array_fault :
    ((did factory (.keyArrayStorageFault 2 3 31)).key.areaWord 2 3) = ⟨0x80000000, false⟩ ∧
      did locked (.keyArrayStorageFault 2 3 31) = locked ∧ did locked (.keyArrayStorageFault 2 259 0) = locked := by
  decide +kernel

/-! ### Lifecycle, commit and start-up (Chapter 8) -/

/-- A small set that can be commissioned: geometry 64 × 64, P = 32, K = 1 (nine words) in bank A, region 5 selected. -/
def committable : State :=
  didAll factory
    [.geometrySet 1 [0x00400040, 0x00200100, 0x10000000, 0, 0], .activate 2 [0], .inputFrameStart 0,
     .profileWrite 3 [0x05000000, 0x3A980F3C, 0x10000FAA], .regionSelect 4 [0x05000000]]

/-- Table 43's refusals, in order. -/
theorem test_commit_refusals :
    answer factory (.commit 1 [0]) = some (.refused .geometry, []) ∧
      answer (didAll factory [.geometrySet 1 [0x00400040, 0x00200100, 0x10000000, 0, 0], .activate 2 [0],
        .inputFrameStart 0]) (.commit 1 [0]) = some (.refused .noRegion, []) ∧
      answer (did committable (.profileWrite 3 [0x05000002, 0, 0])) (.commit 1 [0]) =
        some (.refused .keysMissing, [0x05C00002]) ∧
      (did committable (.commit 0x51 [0])).life.lifecycle = .committing := by decide +kernel

/-- The commit of a set of nine words in bank B, its trailer page in progress. -/
def trailing : State :=
  { committable with
    eng := { committable.eng with holdCommit := some 0x51 }
    life := { committable.life with
      lifecycle := .committing
      commit := some ⟨.b, 9, .trailer, 9, none, [.program 0 [1, 2, 3]], [], 0xABCD0123, false⟩ } }

/-- The accepted commit reads nine words and comes to phase TRAILER; the last page's end makes it COMMISSIONED, mode
FULL, with the word count and the CRC (R135, R136, R20). The example's image has 97 sectors. -/
theorem test_commit :
    ((didAll committable (.commit 0x51 [0] :: .flashOperationEnd false [] :: List.replicate 9 .commitReaderWord)).life.commit.map
      fun c => (c.phase, c.taken, c.ops.length)) = some (.trailer, 9, 1) ∧
      newest (did trailing (.flashOperationEnd false [])) = some (.done, [9, 0xABCD0123]) ∧
      (did trailing (.flashOperationEnd false [])).life.lifecycle = .commissioned ∧
      (did trailing (.flashOperationEnd false [])).pipe.pending.mode = .full ∧ imageSectors 98328 = 97 := by
  decide +kernel

/-- A page that reads back different stops the commit; after the erase of sector 0 it is FAILED, FLASH, at the page's
address (R137). -/
theorem test_commit_flash :
    let s := didAll trailing [.flashOperationEnd false [1, 2, 4], .flashOperationEnd false []]
    newest s = some (.failed .flash, [0x03000009, 0]) ∧ s.life.lifecycle = .factory ∧ s.life.commitFailed = true ∧
      s.life.flash = [] := by decide +kernel

/-- The commissioned part. -/
def commissioned : State :=
  { committable with
    life := { committable.life with lifecycle := .commissioned }
    pipe := { committable.pipe with pending := { committable.pipe.pending with mode := .full } } }

/-- COMMIT ABORT in phase WORDS: the COMMIT's FAILED, ABORTED with the phase and count, then its own DONE. -/
theorem test_commit_abort :
    let s := didAll committable [.commit 0x51 [0], .flashOperationEnd false [], .commitReaderWord, .commitReaderWord,
      .commitAbort 0x55 [0], .flashOperationEnd false []]
    (s.outbox.drop (s.outbox.length - 2)).map (fun r => (r.tag, r.completion, r.payload)) =
        [(0x51, .failed .aborted, [0x02000002, 0]), (0x55, .done, [])] ∧
      s.life.lifecycle = .factory ∧ s.life.commitFailed = false ∧ s.life.flash = [] := by decide +kernel

/-- An uncorrectable word stops a commit: FAILED, ECC, phase WORDS, no word taken, bank B and address 0 (R137). -/
theorem test_commit_ecc :
    let s := didAll committable [.commit 0x51 [0], .flashOperationEnd false [], .storageFault .b 0 1,
      .storageFault .b 0 2, .commitReaderWord, .flashOperationEnd false []]
    newest s = some (.failed .ecc, [0x02000000, 0x80000000]) ∧ s.life.lifecycle = .factory ∧
      s.life.commitFailed = true := by decide +kernel

theorem test_reopen :
    answer commissioned (.nodeWrite 1 [0, 0]) = some (.refused .state, []) ∧
    answer commissioned (.reopen 1 [0]) = some (.done, []) ∧
      (did commissioned (.reopen 1 [0])).life.lifecycle = .factory ∧
      answer factory (.reopen 1 [0]) = some (.refused .state, []) := by decide +kernel

/-- A flash that holds an image: geometry 64 × 64, P = 32, K = 1, nine words, region 5, and a trailer for the CRC
12345678h. -/
def imageFlash : List Host.Cell :=
  flashWrite [] 0 ([0x7140C1A5, 3, 0x00400040, 0x00200100, 0x10000000, 0, 0, 0x05000000, 0x3A980F3C, 0x10000FAA,
    0x010A0822, 9, 1, 2, 3, 4, 5, 6, 7, 8, 0xC0000009, 0x12345678, 0xEDCBA987])

/-- The header of Table 61 as the loader reads it (R144). -/
def imageHeader : ImageHeader :=
  ⟨⟨64, 64, 32, 1, 0, [4096]⟩, 5, ⟨15000, ⟨3900, 4096, 4010⟩, 0⟩, .d10, .d8, .ordered, ⟨false, false, true, false⟩, 9⟩

theorem test_image_header : readHeader imageFlash = .ok imageHeader := by
  have h : ∀ x : Except StartOutcome ImageHeader, x.toOption = some imageHeader → x = .ok imageHeader := by
    intro x hx
    cases x <;> simp_all [Except.toOption]
  exact h _ (by decide +kernel)

/-- The loader at the end of that image: COMMISSIONED, VALID, with its settings (R145); spare bits are stored as 0. -/
theorem test_load_valid :
    let s := { State.reset with life := { State.reset.life with
      flash := imageFlash, startUp := .load (.image imageHeader 8 0) } }
    let t := did (did s (.loaderWordWrite false)) (.keyArrayScanEnd)
    let u := did { t with life := { t.life with startUp := .load (.image imageHeader 9 0x12345678) } } (.startUpLoadEnd false)
    t.store.wordAt .a 8 = ⟨9, 0⟩ ∧ u.life.lifecycle = .commissioned ∧ u.life.outcome = .valid ∧
      u.store.geomA = some ⟨64, 64, 32, 1, 0, [4096]⟩ ∧ u.region.selected = some 5 ∧ u.pipe.pending.mode = .full ∧
      u.pipe.pending.ceiling = 15000 ∧ u.pipe.pending.rounding = .ordered := by decide +kernel

/-- A blank flash, a failing read, and a trailer that does not match (R144, R146). -/
theorem test_load_failures :
    (didAll State.reset [.keyArrayScanEnd, .loaderWordWrite false, .startUpLoadEnd false]).life.outcome = .blank ∧
      (didAll State.reset [.keyArrayScanEnd, .startUpLoadEnd true]).life.outcome = .flash ∧
      (did { State.reset with life := { State.reset.life with
        flash := imageFlash, startUp := .load (.image imageHeader 9 0x12345679) } }
        (.startUpLoadEnd false)).life.outcome = .invalid := by decide +kernel

/-- Power-on leaves the banks, the key array and the flash, and begins start-up (R143). -/
theorem test_power_on :
    let s := didAll { locked with life := { locked.life with flash := imageFlash } } [.powerRemoval false 0 [], .powerOn 9]
    s.life.lifecycle = .starting ∧ s.timing.deadline = some 2000000009 ∧ s.life.flash = imageFlash ∧
      (did s .keyArrayScanEnd).key.record 2 = locked.key.record 2 := by decide +kernel

/-- RESTART (R142, R143): a pending ACTIVATE is cancelled first, and the end of the RESTART reply begins start-up. -/
theorem test_restart :
    let s := didAll factory [.geometrySet 1 [0x00400040, 0x00200100, 0x10000000, 0, 0], .activate 2 [0], .restart 3 [0]]
    (s.outbox.drop 1).map (fun r => (r.tag, r.completion)) = [(2, .failed .aborted), (3, .done)] ∧
      (didAll s [.status 4 [0]]).outbox = s.outbox ∧
      (didAll s (List.replicate 3 (.replyTransmissionEnd 7))).life.lifecycle = .starting ∧
      (didAll s (List.replicate 3 (.replyTransmissionEnd 7))).ret = .start := by decide +kernel

/-! ### The command engine and the return lane (Chapters 9 and 10) -/

/-- STATUS (Table 49) in STARTING, and BUSY for every other command there. -/
theorem test_status :
    answer State.reset (.status 1 [0]) =
        some (.done, [0x1BE40001, 0x000C0000, 0x00181007, 0x01404080, 0, 0, 0, 0]) ∧
      answer State.reset (.release 1 [0]) = some (.refused .busy, []) ∧
      answer factory (.status 1 [0, 0]) = some (.refused .length, []) := by decide +kernel

/-- RELEASE returns the record and clears it (R150); an unknown code is refused (R148). -/
theorem test_release_and_unknown :
    let s := { factory with eng := { factory.eng with hold := some ⟨.refusal .address, some 0x13, none, some 820254, 77⟩ } }
    answer s (.release 1 [0]) = some (.done, [0x88800013, 0x800C841E, 77]) ∧ (did s (.release 1 [0])).eng.hold = none ∧
      answer factory (.unknownCode 1 0x83 [0]) = some (.refused .unknown, []) := by decide +kernel

/-- The first reply's bytes on the lane: eleven bytes and a word (Table 55), the credits 320 (0140h). -/
theorem test_reply_bytes :
    (did factory (.captureRead 0x77 [0])).laneBytes.take 14 =
      [0x77, 0x53, 0, 0, 0x40, 0, 1, 0x40, 0, 1, 0, 0, 0, 0] := by decide +kernel

/-! ### Frames and pixels (Chapters 1 and 10) -/

/-- Rows of one pixel in a BYPASS frame: the first waits until its row is decided; the frame ends complete at 1 × 2, and
its report follows its last pixel (R5, R59, R156, R158). The outputs are those of the example of R42. -/
theorem test_input_frame :
    let s := didAll factory [.inputFrameStart 100, .pixelReceived 0xFFF 0x800 0, .pixelProcess, .rowEnd,
      .pixelReceived 0 0 0, .rowEnd, .inputFrameEnd]
    let t := did s .pixelProcess
    s.rx.measured = some ⟨1, 2⟩ ∧ s.timing.owedEnd = some ⟨⟨1, 2⟩, 0⟩ ∧ s.pipe.input.length = 2 ∧
      t.pipe.panel = some ⟨0, 0, 0xFFC, 0x804, 0⟩ ∧ t.mon.ring = [] ∧
      (did t .pixelProcess).mon.ring.map (fun r => (r.frame, r.mode, r.measured, r.pixels)) =
        [(1, .bypass, some ⟨1, 2⟩, 2)] := by decide +kernel

/-- A frame cut by the next frame start, and one by loss of the link: the measurement becomes absent, and the reports
have the size received (R6, R156). -/
theorem test_cut_frames :
    let s := didAll factory [.inputFrameStart 100, .pixelReceived 1 1 1, .pixelReceived 1 1 1, .inputFrameStart 300]
    let t := did s .linkLoss
    s.timing.lastPeriod = 200 ∧ s.timing.deadline = some 700 ∧ s.timing.frameNumber = 2 ∧
      s.mon.ring.map (fun r => (r.frame, r.measured)) = [(1, some ⟨2, 1⟩)] ∧ t.rx.frame = none ∧
      t.mon.ring.map (fun r => (r.frame, r.measured)) = [(1, some ⟨2, 1⟩), (2, some ⟨0, 1⟩)] := by decide +kernel

/-- Free-run (R7 to R9): a raster of 3840 × 2160 with nothing measured, black pixels signed, and input ends it. -/
theorem test_free_run :
    let s := didAll factory [.deadlineExpiry, .freeRunPixelSent, .freeRunPixelSent]
    s.timing.frame = .freeRun ⟨3840, 2160⟩ 2 ∧ (s.mon.acc.map Accumulator.pixels) = some 2 ∧
      s.mon.acc.map Accumulator.crc = some (crc32 (List.replicate 12 0)) ∧
      (did s (.inputFrameStart 5)).timing.free = false ∧
      (did s .freeRunFrameEnd).timing.frameNumber = 2 ∧ (did s .freeRunFrameEnd).mon.ring.length = 1 := by decide +kernel

/-- The committable set with no frame in progress, a measured size of 64 × 64 and the pending mode FULL. -/
def measured : State :=
  let s := did committable .linkLoss
  { s with
    rx := { s.rx with measured := some ⟨64, 64⟩ }
    pipe := { s.pipe with pending := { s.pipe.pending with mode := .full } } }

/-- In a FULL frame the rows 0 and 1 are fetched word by word into their slots; a word with one fault is delivered
corrected and its scrub requested (R74 to R76, R82, R84). -/
theorem test_fetches :
    let s := { measured with store := { measured.store with bankB := [(1, ⟨7, 1⟩)] } }
    let t := didAll s [.inputFrameStart 9, .fetchWordRead, .fetchWordRead, .fetchWordRead]
    t.pipe.live.mode = .full ∧ t.buf.fetch = some 1 ∧ t.buf.fetchList = [2] ∧
      t.buf.wordAt .b ⟨64, 64, 32, 1, 0, [4096]⟩ 0 1 0 = some ⟨7, false⟩ ∧
      t.buf.wordAt .b ⟨64, 64, 32, 1, 0, [4096]⟩ 1 0 0 = none ∧ t.store.scrub.length = 1 := by decide +kernel

/-- The pixels of a row of bytes, three at a time, each byte the top 8 bits of its field (R157). -/
def pixelsOf : List Byte → List Instr
  | a :: b :: c :: rest =>
    .pixelReceived (a.setWidth 12 <<< 4) (b.setWidth 12 <<< 4) (c.setWidth 12 <<< 4) :: pixelsOf rest
  | _ => []

/-- "Example: one service line", with a NODE WRITE of two words: the two good packets are placed, and the third, its
check corrupted, ends the line with CHECK and row 0. The reserved byte of the second is not examined (R160). -/
theorem test_service_line :
    let good := packetBytes 0 ⟨0x61, 0x20, [0x40000000, 7]⟩ ++ packetBytes 0xAB ⟨0x62, 0x01, [0]⟩
    let bad := packetBytes 0 ⟨0x63, 0x18, [0x101, 5]⟩
    let line := lineHeader (good.length + bad.length) ++ good ++ bad.take (bad.length - 1) ++ [bad.getLastD 0 ^^^ 1, 0]
    let s := didAll (did factory (.inputFrameStart 0)) (pixelsOf line)
    line.length = 51 ∧ s.eng.queue = [⟨0x61, 0x20, [0x40000000, 7]⟩, ⟨0x62, 0x01, [0]⟩] ∧
      s.eng.hold = some ⟨.check, none, some 0, none, 1⟩ ∧ s.rx.serviceRows = 1 ∧
      (did s .rowEnd).rx.frame.map RxFrame.regionOpen = some true := by decide +kernel

/-- A line cut short by its row's end enters hold (R162); a row that is not a service line closes the region (R158). -/
theorem test_line_cut :
    let s := didAll (did factory (.inputFrameStart 0)) (pixelsOf (marker ++ [0]))
    (did s .rowEnd).eng.hold = some ⟨.check, none, some 0, none, 1⟩ ∧
      (didAll (did factory (.inputFrameStart 0)) (pixelsOf [1, 2, 3] ++ [.rowEnd])).rx.frame.map RxFrame.regionOpen =
        some false := by decide +kernel

/-! ### Witnesses: a state and operands that meet the hypotheses of each statement, clause by clause -/

/-- The answer is a next state. -/
def goes (o : Answer) : Bool :=
  match o with
  | .next _ => true
  | _ => false

/-- Every invariant of the model. -/
def sound (s : State) : Bool := s.canonical && s.bounded && s.consistent && s.framesFollow && s.keysSound && s.keysScan

/-- A packet that the part can take. -/
def takes (s : State) (c : Instr) : Bool := (c.packet.map s.canTake).getD false

/-- FACTORY and held. -/
def held : State :=
  { factory with eng := { factory.eng with hold := some ⟨.refusal .address, some 0x13, none, some 820254, 77⟩ } }

/-- FACTORY, with anchor 1 at the last word of a bank. -/
def top : State :=
  { factory with eng := { factory.eng with anchors := ⟨786431, .onWrite⟩ :: List.replicate 6 ⟨0, .none⟩ } }

/-- FACTORY, bank B with a geometry record, and an ACTIVATE pending. -/
def pending : State := didAll factory [.geometrySet 1 [0x00400040, 0x00200100, 0x10000000, 0, 0], .activate 2 [0]]

/-- A FULL frame whose row 0 is fetched, with row 1 in progress. -/
def fetched : State :=
  didAll measured [.inputFrameStart 9, .fetchWordRead, .fetchWordRead, .fetchWordRead]

theorem witness_StepRunsFrontCommand :
    ({ factory with pending := [.rowEnd, .linkLoss] } : State).pending = .rowEnd :: [.linkLoss] ∧ factory.pending = [] := by
  decide +kernel

theorem witness_CommandsCompleteOrFault :
    (Instr.storageFault .b 786431 38).wf = true ∧ (Instr.status 1 []).packet = some ⟨1, 1, []⟩ ∧ payloadOk [] = false ∧
      (0x82 : Byte) ∈ Config.commandCodes ∧ 786431 < 786432 ∧ 38 < 39 ∧ 23 < 24 ∧ 259 < 260 ∧ 31 < 32 := by
  decide +kernel

/-- For the five statements that every step keeps an invariant, and those about any step. -/
theorem witness_Invariants :
    [State.reset, held, pending, staged, locked, committable, commissioned, trailing, fetched].all (fun s =>
      sound s && goes (step { s with pending := [.status 1 [0]] }) && goes (exec (.regionSelect 1 [0x05000000]) s)) =
      true := by decide +kernel

/-- A frame start that exchanges the roles. -/
theorem witness_StoredStateKept :
    pending.store.activatePending = true ∧ goes (exec (.inputFrameStart 0) pending) = true ∧
      (Instr.inputFrameStart 0).startsUp pending = false ∧ (Instr.inputFrameStart 0).startsFrame = true ∧
      (did pending (.inputFrameStart 0)).store.active = pending.store.load := by decide +kernel

theorem witness_CommissionedFacts : commissioned.consistent = true ∧ commissioned.life.lifecycle = .commissioned := by
  decide +kernel

theorem witness_LifecycleMoves :
    commissioned.consistent = true ∧ goes (exec (.reopen 1 [0]) commissioned) = true ∧
      (did commissioned (.reopen 1 [0])).life.lifecycle ≠ commissioned.life.lifecycle := by decide +kernel

/-- A command, and the end of a transmission that is not RESTART's. -/
theorem witness_FrameStateKept :
    let s := did factory (.status 1 [0])
    goes (exec (.pipeSet 1 [0x010A0822]) factory) = true ∧ (Instr.pipeSet 1 [0x010A0822]).startsFrame = false ∧
      (Instr.pipeSet 1 [0x010A0822]).startsUp factory = false ∧ goes (exec (.replyTransmissionEnd 9) s) = true ∧
      (Instr.replyTransmissionEnd 9).startsUp s = false ∧
      (Instr.replyTransmissionEnd 9).startsUp (did factory (.restart 3 [0])) = true ∧
      ({ factory with mon := { factory.mon with
        capture := some ⟨813, 2210, 977, .r, .clipHigh, 16000, some 500, some 16500⟩
        sticky := ⟨false, false, false, true⟩ } } : State).mon.sticky.get .limit = true := by decide +kernel

theorem witness_HoldStands :
    held.eng.hold = some ⟨.refusal .address, some 0x13, none, some 820254, 77⟩ ∧
      goes (exec (.anchorSet 1 [0x101, 5]) held) = true ∧ held.eng.hold.isSome = true := by decide +kernel

/-- A LOCKED slot, its start-up scan, and a slot whose programming is in progress. -/
theorem witness_KeyStorageIsFinal :
    let scan := didAll locked [.powerRemoval false 0 [], .powerOn 0]
    let s := didAll staged [.keyLock 0x36 [0x02000000], .keyWordProgrammed 0]
    (sound scan && goes (exec .keyArrayScanEnd scan) && sound s) = true ∧ (scan.key.record 2).state = .locked ∧
      s.key.prog = some ⟨2, .word 1⟩ ∧
    goes (exec (.keyOpen 1 [0x03020010, 0]) locked) = true ∧ (locked.key.record 2).state = .locked ∧
      (locked.key.areaWord 2 258).mark = true := by decide +kernel

/-- A reply queue with 63 replies has room; one with 64 has none; a reply waits at 63, and its block has another to post
behind it, or none. -/
theorem witness_RepliesEnterByRank :
    let r : Reply := ⟨1, 1, .done, factory.summary, []⟩
    let full (n : Nat) (w : List Waiter) (l : List Post) : State :=
      { factory with ret := ⟨List.replicate n r, w, l, .sending 320⟩ }
    (full 63 [] []).ret.queue.length < 64 ∧ (full 63 [] []).ret.waiting = [] ∧ 64 ≤ (full 64 [] []).ret.queue.length ∧
      (full 63 [⟨.key, false, r⟩] []).ret.waiting ≠ [] ∧ blockFree .key (full 64 [⟨.key, false, r⟩] []) = false ∧
      blockFree .store (full 64 [⟨.key, false, r⟩] []) = true ∧
      (admitWaiter (full 63 [⟨.engine, false, r⟩, ⟨.key, false, r⟩] [⟨.key, false, 7, 0x72, .done, []⟩])).ret.waiting.map
        (fun w => (w.poster, w.reply.tag)) = [(.engine, 1), (.key, 7)] := by decide +kernel

theorem witness_EngineTestsRefuse :
    (takes State.reset (.nodeWrite 1 [0, 0]) && takes held (.nodeWrite 1 [0, 0]) && takes commissioned (.keyLock 1 [0]) &&
      takes { trailing with eng := { trailing.eng with queue := [] } } (.reopen 1 [0]) && takes factory (.reopen 1 [0]) &&
      takes commissioned (.commitAbort 1 [0]) && takes factory (.geometrySet 1 [0])) = true ∧
    State.reset.life.lifecycle = .starting ∧ State.reset.eng.hold = none ∧ held.life.lifecycle ≠ .starting ∧
    held.eng.hold.isSome = true ∧ commissioned.eng.hold = none ∧ trailing.life.lifecycle = .committing ∧
    trailing.eng.hold = none ∧ factory.life.lifecycle = .factory ∧ factory.eng.hold = none ∧
    (Instr.geometrySet 1 [0]).fixedLength = some 5 := by decide +kernel

theorem witness_EngineCommandsAnswer :
    (takes State.reset (.status 1 [0]) && takes held (.release 1 [0]) && takes factory (.unknownCode 1 0xFF [0, 0])) =
      true ∧ (0xFF : Byte) ∉ Config.commandCodes ∧ held.life.lifecycle ≠ .starting := by decide +kernel

theorem witness_PipeCommandsAnswer :
    (takes factory (.pipeSet 1 [0x010A0822]) && takes factory (.pipeSet 1 [0x010A0822, 0]) &&
      takes factory (.pipeSet 1 [0x02000000, 0]) && takes held (.pipeRead 1 [0])) = true ∧
    pipeModeOf (bits 0x010A0822 27 24) = some .full ∧ depthOf (bits 0x010A0822 23 16) = some .d10 ∧
    depthOf (bits 0x010A0822 15 8) = some .d8 ∧ roundingOf (bits 0x010A0822 7 4) = some .ordered ∧
    1 < bits 0x02000000 27 24 ∧ depthOf (bits 0x00090A00 23 16) = none ∧ depthOf (bits 0x000A0900 15 8) = none ∧
    2 < bits 0x000A0A30 7 4 := by decide +kernel

theorem witness_MonitorCommandsAnswer :
    held.life.lifecycle ≠ .starting ∧
    (takes held (.windowSet 1 [0, 0]) && takes held (.reportRead 1 [0]) && takes held (.conditionsRead 1 [0]) &&
      takes held (.captureRead 1 [0]) && takes held (.captureClear 1 [0])) = true := by decide +kernel

theorem witness_StoreCommandsAnswer :
    (takes factory (.activate 1 [0]) && takes pending (.activate 1 [0]) && takes committable (.activate 1 [0]) &&
      takes held (.logRead 1 [0]) && takes held (.logClear 1 [0]) && takes held (.geometryRead 1 [0x40000000]) &&
      takes pending (.geometrySet 1 [0x00400040, 0x00200100, 0x10000000, 0, 0])) = true ∧
    factory.store.geometry factory.store.load = none ∧
    ((pending.store.geometry pending.store.load).isSome && pending.store.activatePending) = true ∧
    (let s := did factory (.geometrySet 1 [0x00400040, 0x00200100, 0x10000000, 0, 0])
     ((s.store.geometry s.store.load).isSome && !s.store.activatePending && takes s (.activate 1 [0])) = true) ∧
    (geometryOf [0x003F0040, 0x00200100, 0x10000000, 0, 0]).fieldsOk = false ∧
    (geometryOf [0x1E0010E0, 0x00080200, 0x08003000, 0, 0]).capacityOk = false ∧
    (let g := geometryOf [0x00400040, 0x00200100, 0, 0, 0]
     (g.fieldsOk && g.capacityOk && !g.levelsOk) = true) ∧
    (geometryOf [0x00400040, 0x00200100, 0x10000000, 0, 0]).valid = true ∧ pending.life.lifecycle = .factory ∧
    pending.eng.hold = none ∧ bits 0 31 30 = 0 ∧ bits 0x40000000 31 30 = 1 ∧ 1 < bits 0x80000000 31 30 := by
  decide +kernel

/-- Anchors 1 and 7, anchor 0, mode 3, and payloads of one word and of three. -/
theorem witness_AnchorSetAnswers :
    (takes factory (.anchorSet 1 [0x102, 5]) && takes commissioned (.anchorSet 1 [0x700, 5]) &&
      takes factory (.anchorSet 1 [0x102]) && takes factory (.anchorSet 1 [0x102, 5, 5])) = true ∧
    factory.eng.hold = none ∧ factory.eng.anchors.length = 7 ∧ commissioned.life.lifecycle = .commissioned ∧
    bits 0x102 10 8 = 1 ∧ bits 0x700 10 8 = 7 ∧ bits 0x002 10 8 = 0 ∧
    anchorModeOf (bits 0x102 1 0) = some .onReadAndWrite ∧ anchorModeOf (bits 0x103 1 0) = none := by decide +kernel

theorem witness_AnchorReadAnswers :
    (takes State.reset (.anchorRead 1 [0]) && takes held (.anchorRead 1 [0]) && takes held (.anchorRead 1 [0, 0])) = true ∧
    State.reset.life.lifecycle = .starting ∧ held.life.lifecycle ≠ .starting := by decide +kernel

theorem witness_AnchorsAddressAndAdvance :
    top.eng.anchors.length = 7 ∧ (⟨1, .a, 0, 5, 9⟩ : Run).base ≤ 7 ∧ (⟨1, .a, 7, 5, 9⟩ : Run).base ≤ 7 ∧
      (top.eng.anchor 1).mode = .onWrite := by decide +kernel

/-- Runs that end at the last word of a bank, of no word, of 128 words, and one that passes the end. -/
theorem witness_NodeCommandsTaken :
    roleOf 0x08000000 = some .active ∧ roleOf 0x48000000 = some .load ∧ (effectiveAddress top.eng 0x08000000).toNat = 786431 ∧
    top.life.lifecycle = .factory ∧ top.eng.hold = none ∧ top.store.activatePending = false ∧
    (takes top (.nodeWrite 1 [0x48000000, 7]) && takes top (.nodeWrite 1 [0x48000000]) &&
      takes top (.nodeFill 1 [0x08000000, 0, 1]) && takes top (.nodeFill 1 [0x08000000, 0, 0]) &&
      takes top (.nodeRead 1 [0x08000000, 1]) && takes top (.nodeRead 1 [0, 128]) && takes top (.nodeRead 1 [0]) &&
      takes top (.nodeRead 1 [0, 129]) && takes top (.nodeRead 1 [0x80000000, 1, 1])) = true ∧
    1 < bits 0x80000000 31 30 ∧ bits 0x10000 15 0 = 0 ∧ 128 < bits 129 15 0 ∧
    786431 + 1 ≤ 786432 ∧ 786432 < 786431 + 2 ∧ bits 0x80 15 0 = 128 ∧ min (bits 0x80001000 19 0) 4096 = 4096 := by
  decide +kernel

theorem witness_NodeRefusalsHold :
    (takes top (.nodeWrite 1 [0x80000000]) && takes top (.nodeWrite 1 [0x08000000, 1, 2]) &&
      takes top (.nodeFill 1 [0x80000000]) && takes top (.nodeFill 1 [0x08000000, 1]) &&
      takes pending (.nodeFill 1 [0x40000000, 0, 0])) = true ∧
    1 < bits 0x80000000 31 30 ∧ 786432 < (effectiveAddress top.eng 0x08000000).toNat + 2 ∧ bits 0x40000000 31 30 = 1 ∧
    pending.store.activatePending = true ∧ pending.life.lifecycle = .factory ∧ pending.eng.hold = none ∧
    top.life.lifecycle = .factory := by decide +kernel

/-- Slot 0 holds row 0 of bank B, three words; word 2 is its last. Word 9 is of no row, and without a live geometry none
is. -/
theorem witness_CommandWriteReaches :
    fetched.canonical = true ∧ fetched.buf.slots[0]? = some (some ⟨.b, 0, 3, []⟩) ∧ fetched.buf.slots[2]? = some none ∧
    fetched.pipe.live.geometry = some ⟨64, 64, 32, 1, 0, [4096]⟩ ∧
    (Geometry.mk 64 64 32 1 0 [4096]).rowOf 2 = some 0 ∧ (Geometry.mk 64 64 32 1 0 [4096]).rowOf 3 = some 1 ∧
    (Geometry.mk 64 64 32 1 0 [4096]).rowOf 9 = none ∧ factory.pipe.live.geometry = none := by decide +kernel

/-- A write with one word and with two to go, a fill likewise, a read likewise; and a port that others claim. -/
theorem witness_EngineAccesses :
    let hand (j : Job) : State := { factory with eng := { factory.eng with inHand := some j } }
    (hand (.write ⟨1, .a, 0, 1, 786431⟩ [7])).powered = true ∧ factory.buf.fetch = none ∧ factory.store.scrub = [] ∧
    commitHoldsPort factory = false ∧ fetched.buf.fetch.isSome = true ∧
    (hand (.write ⟨1, .a, 0, 2, 0⟩ [7, 8])).eng.inHand = some (.write ⟨1, .a, 0, 2, 0⟩ (7 :: [8])) ∧
    (hand (.fill ⟨1, .a, 0, 1, 0⟩ 7 1 0)).eng.inHand = some (.fill ⟨1, .a, 0, 1, 0⟩ 7 (0 + 1) 0) ∧
    (hand (.read ⟨1, .a, 0, 2, 0⟩ 2 true [])).eng.inHand = some (.read ⟨1, .a, 0, 2, 0⟩ (1 + 1) true []) := by
  decide +kernel

theorem witness_NodeWriteLands :
    top.canonical = true ∧ roleOf 0x48000000 = some .load ∧ takes top (.nodeWrite 1 (0x48000000 :: [7])) = true ∧
    top.life.lifecycle = .factory ∧ top.eng.hold = none ∧ top.store.activatePending = false ∧ top.buf.fetch = none ∧
    top.store.scrub = [] ∧ top.life.commit = none ∧ top.eng.anchors.length = 7 ∧ [(7 : Word)] ≠ [] ∧
    (effectiveAddress top.eng 0x48000000).toNat + [(7 : Word)].length ≤ 786432 := by decide +kernel

/-- Positions at the ends, and a word whose stored bits two pairs of data and flips give. -/
theorem witness_CheckedReadFindings :
    (0 : Fin 39) < 38 ∧ (31 : Fin 39) < 32 ∧ (⟨5, 3⟩ : StoredWord).stored = (⟨5, 3⟩ : StoredWord).stored := by
  exact ⟨by decide +kernel, by decide +kernel, rfl⟩

/-- The queue's request finds its word as read, and, after a further fault, otherwise. -/
theorem witness_FaultAndScrub :
    let s := didAll factory [.storageFault .a 786431 38, .nodeRead 1 [0xFFFF, 1]]
    let q : State := { s with store := { s.store with scrub := [⟨.a, 786431, ⟨0, 1#39 <<< 38⟩, 0⟩] } }
    let t := did q (.storageFault .a 786431 0)
    q.powered = true ∧ q.canonical = true ∧ q.buf.fetch = none ∧ q.store.scrub = ⟨.a, 786431, ⟨0, 1#39 <<< 38⟩, 0⟩ :: [] ∧
    q.store.wordAt .a 786431 = ⟨0, 1#39 <<< 38⟩ ∧ t.canonical = true ∧
    t.store.wordAt .a 786431 = ⟨0, 1#39 <<< 38 ||| 1⟩ ∧
    (⟨0, 1#39 <<< 38 ||| 1⟩ : StoredWord).stored ≠ (⟨0, 1#39 <<< 38⟩ : StoredWord).stored ∧
    fetched.buf.fetch.isSome = true := by
  and_intros
  all_goals first
    | decide +kernel
    | simp only [StoredWord.stored, ne_eq, BitVec.xor_right_inj]; decide

/-- Row 1 at its first word; row 0 at its last with row 1 listed, whose slot is the first empty one; row 2 at its last
with no row listed; and with row 3 listed, which takes the slot of row 0. -/
theorem witness_FetchDelivers :
    let t := didAll fetched (List.replicate 5 .fetchWordRead)
    let u := didAll measured [.inputFrameStart 9, .fetchWordRead, .fetchWordRead]
    let v := did { t with buf := { t.buf with fetchList := [3] } } .fetchWordRead
    fetched.powered = true ∧ fetched.pipe.live.geometry = some ⟨64, 64, 32, 1, 0, [4096]⟩ ∧
    fetched.buf.fetch = some 1 ∧ fetched.buf.slots[1]? = some (some ⟨.b, 1, 0, []⟩) ∧
    0 + 1 < (Geometry.mk 64 64 32 1 0 [4096]).rowWords ∧ Memory.wf SlotWord.none [] = true ∧
    u.buf.slots = [some ⟨.b, 0, 2, []⟩, none, none] ∧ u.buf.fetchList = 1 :: [2] ∧ u.buf.fetch = some 0 ∧
    takesSlot .b 1 none ∧ t.buf.fetch = some 2 ∧ t.buf.slots[2]? = some (some ⟨.b, 2, 2, []⟩) ∧ t.buf.fetchList = [] ∧
    takesSlot .b 3 (some ⟨.b, 0, 3, []⟩) ∧ v.buf.fetch = some 0 ∧ v.buf.slots[0]? = some (some ⟨.b, 3, 0, []⟩) := by
  and_intros
  all_goals first | decide +kernel | exact rfl | exact ⟨_, rfl, rfl, rfl⟩

/-- A full log with a CORRECTED entry last, and one of UNCORRECTABLE entries only. -/
theorem witness_LogKeepsFindings :
    let bad : List LogEntry := (List.range 15).map fun i => ⟨.a, i, .uncorrectable, 0, 1⟩
    LogEntry.distinct (bad ++ [⟨.a, 15, .corrected 3, 0, 255⟩]) = true ∧
    LogEntry.distinct (bad ++ [⟨.b, 0, .uncorrectable, 0, 1⟩]) = true ∧
    (bad ++ [(⟨.a, 15, .corrected 3, 0, 255⟩ : LogEntry)]).length = 16 ∧
    (∀ e ∈ bad ++ [(⟨.b, 0, .uncorrectable, 0, 1⟩ : LogEntry)], e.kind = .uncorrectable) ∧
    (∀ e ∈ bad, e.bank ≠ .b ∨ e.addr ≠ 9) := by decide +kernel

/-- Indices 15 and 16; entry 5 valid, entry 0 not. -/
theorem witness_RegionCommandsAnswer :
    committable.region.entries.length = 16 ∧ committable.life.lifecycle = .factory ∧ committable.eng.hold = none ∧
    bits 0x0F000000 31 24 = 15 ∧ bits 0x10000000 31 24 = 16 ∧
    (takes committable (.profileWrite 1 [0x0F000000, 0, 0]) && takes committable (.profileRead 1 [0x0F000000]) &&
      takes committable (.regionSelect 1 [0x05000000]) && (committable.region.entry 5).isSome &&
      (committable.region.entry 0).isNone) = true := by decide +kernel

/-- Slot 23 and slot 24, classes 0, 1, 7 and 8, lengths 16, 1,024 and 24; an EMPTY, a STAGING, a LOCKING and a LOCKED
slot; an offset and a length beyond the count; keys that match and that do not. -/
theorem witness_KeyCommandsAnswer :
    bits 0x17010010 31 24 = 23 ∧ bits 0x18010010 31 24 = 24 ∧ bits 0x17010010 19 16 = 1 ∧ bits 0x17070400 19 16 = 7 ∧
    bits 0x17080400 19 16 = 8 ∧ bits 0x17070400 15 0 = 1024 ∧ bits 0x17070018 15 0 = 24 ∧
    (factory.key.record 23).state = .empty ∧ factory.key.inFlight = false ∧ staged.key.inFlight = true ∧
    (locked.key.record 2).state = .locked ∧ ((did staged (.keyLock 0x36 [0x02000000])).key.record 2).state = .locking ∧
    (takes factory (.keyOpen 1 [0x17010010, 0]) && takes factory (.keyOpen 1 [0x17010010]) &&
      takes staged (.keyData 1 [0x02000010]) && takes staged (.keyData 1 [0x02000010, 7]) &&
      takes staged (.keyData 1 (0x02000010 :: List.replicate 127 0)) && takes staged (.keyLock 1 [0x02000000]) &&
      takes staged (.keyLock 1 [0x02000000, 0]) && takes staged (.keyAbandon 1 [0x02000000]) &&
      takes (did staged (.keyLock 0x36 [0x02000000])) (.keyAbandon 1 [0x02000000]) &&
      takes held (.keyQuery 1 [0x17000000]) && takes held (.keyQuery 1 [0x17000000, 0])) = true ∧
    staged.key.record 2 = ⟨.staging, some ⟨2, 16, keyCheck⟩⟩ ∧ staged.key.received = 16 ∧ 16 < 16 + 4 * 1 ∧
    bits 0x02000010 15 0 = staged.key.received ∧ crc32 (staged.key.staged 16) = keyCheck ∧
    crc32 (staged.key.staged 16) ≠ 0x12345678 ∧ staged.life.lifecycle = .factory ∧ staged.eng.hold = none := by
  decide +kernel

/-- KEY LOCK accepted: its first word, its verify, and the void word after a failed verify. -/
theorem witness_KeyProgrammingAdvances :
    let s := did staged (.keyLock 0x36 [0x02000000])
    let good := didAll s (List.replicate 7 (.keyWordProgrammed 0))
    let bad := didAll s (.keyWordProgrammed 0x00020000 :: List.replicate 6 (.keyWordProgrammed 0))
    let void := did bad .keyVerifyEnd
    s.powered = true ∧ s.key.records.length = 24 ∧ s.key.record 2 = ⟨.locking, some ⟨2, 16, keyCheck⟩⟩ ∧
    KeyFields.ok ⟨2, 16, keyCheck⟩ = true ∧ s.eng.restarting = false ∧ s.eng.holdRestart = none ∧
    s.eng.holdKeyLock = some 0x36 ∧ s.key.prog = some ⟨2, .word 0⟩ ∧ good.key.prog = some ⟨2, .verify⟩ ∧
    good.key.verifyFailures 2 ⟨2, 16, keyCheck⟩ = 0 ∧ bad.key.verifyFailures 2 ⟨2, 16, keyCheck⟩ ≠ 0 ∧
    void.key.prog = some ⟨2, .void 1⟩ ∧ void.key.record 2 = ⟨.locking, some ⟨2, 16, keyCheck⟩⟩ ∧
    void.eng.holdKeyLock = some 0x36 := by decide +kernel

/-- A RESTART accepted during a word and during the void word, with the reply queue below its end and at it. -/
theorem witness_KeyProgrammingAdvances_restart :
    let s := did (did staged (.keyLock 0x36 [0x02000000])) (.restart 3 [0])
    let v := did (didAll staged (.keyLock 0x36 [0x02000000] :: .keyWordProgrammed 0x00020000 ::
      List.replicate 6 (.keyWordProgrammed 0) ++ [.keyVerifyEnd])) (.restart 3 [0])
    let full (u : State) : State := { u with ret := { u.ret with queue := List.replicate 64 ⟨1, 1, .done, u.summary, []⟩ } }
    s.eng.restarting = true ∧ s.eng.holdRestart = some 3 ∧ s.eng.holdActivate = none ∧ s.eng.holdCommit = none ∧
    s.ret.waiting = [] ∧ s.ret.later = [] ∧ s.key.prog = some ⟨2, .word 0⟩ ∧ s.ret.queue.length < 64 ∧
    v.key.prog = some ⟨2, .void 1⟩ ∧ v.eng.holdRestart = some 3 ∧ 64 ≤ (full s).ret.queue.length ∧
    (((did s (.keyWordProgrammed 0)).outbox.drop s.outbox.length).map fun r => (r.tag, r.completion, r.payload)) =
      [(0x36, .failed .aborted, [0x02020000]), (3, .done, [])] ∧
    (did (full s) (.keyWordProgrammed 0)).eng.holdRestart = some 3 ∧
    newest (did v (.keyWordProgrammed 0)) = some (.done, []) := by decide +kernel

theorem witness_ProgrammedSlotScansAlike :
    let s := did staged (.keyLock 0x36 [0x02000000])
    let good := didAll s (List.replicate 7 (.keyWordProgrammed 0))
    let void := didAll s (.keyWordProgrammed 0x00020000 :: List.replicate 6 (.keyWordProgrammed 0) ++ [.keyVerifyEnd])
    good.canonical = true ∧ good.key.records.length = 24 ∧ good.key.record 2 = ⟨.locking, some ⟨2, 16, keyCheck⟩⟩ ∧
    KeyFields.ok ⟨2, 16, keyCheck⟩ = true ∧ good.key.prog = some ⟨2, .verify⟩ ∧
    good.key.verifyFailures 2 ⟨2, 16, keyCheck⟩ = 0 ∧ crc32 (good.key.staged 16) = keyCheck ∧
    goes (exec .keyVerifyEnd good) = true ∧ void.canonical = true ∧ void.key.prog = some ⟨2, .void 1⟩ ∧
    (void.key.areaWord 2 0).mark = true ∧ goes (exec (.keyWordProgrammed 0) void) = true := by decide +kernel

/-- A header word, the void word of a LOCKED slot, a data word that may change, and the last bit of all. -/
theorem witness_KeyArrayFault :
    locked.canonical = true ∧ (locked.key.record 2).state = .locked ∧ (locked.key.areaWord 2 3).mark = true ∧
    (locked.key.areaWord 23 259).mark = false ∧ locked.key.inHand 23 259 = false ∧
    (locked.key.record 23).state ≠ .locked ∧ (did staged (.keyLock 1 [0x02000000])).key.inHand 2 0 = true := by
  decide +kernel

/-- Every test of Table 43 from LENGTH on, in FACTORY and in COMMITTING. -/
theorem witness_CommitTaken :
    let missing := did committable (.profileWrite 3 [0x05000002, 0, 0])
    let again := didAll committable [.geometrySet 1 [0x00400040, 0x00200100, 0x10000000, 0, 0], .activate 2 [0]]
    let second := did committable (.commit 0x51 [0])
    (takes factory (.commit 1 [0]) && takes factory (.commit 1 [0, 0]) && takes pending (.commit 1 [0]) &&
      takes missing (.commit 1 [0]) && takes again (.commit 1 [0]) && takes committable (.commit 1 [0]) &&
      takes second (.commit 1 [0]) && takes second (.commit 1 [0, 0])) = true ∧
    factory.store.geometry factory.store.active = none ∧ committable.life.lifecycle = .factory ∧
    second.life.lifecycle = .committing ∧ second.eng.hold = none ∧
    second.store.geometry second.store.active = some ⟨64, 64, 32, 1, 0, [4096]⟩ ∧
    committable.eng.hold = none ∧ committable.store.geometry .b = some ⟨64, 64, 32, 1, 0, [4096]⟩ ∧
    committable.store.active = .b ∧ (did pending (.inputFrameStart 0)).region.selectedEntry = none ∧
    (committable.region.selectedEntry.map Profile.required) = some 0 ∧
    (missing.region.selectedEntry.map Profile.required) = some 2 ∧ missing.key.lockedClasses = 0 ∧
    again.store.activatePending = true ∧ committable.store.activatePending = false ∧ committable.key.inFlight = false := by
  decide +kernel

/-- A commit in progress, a COMMISSIONED part, and parts with nothing in flight, with an ACTIVATE, a verify, both, and a
word being programmed. -/
theorem witness_LifecycleCommandsTaken :
    let s := didAll committable [.commit 0x51 [0], .flashOperationEnd false [], .commitReaderWord]
    let word := did staged (.keyLock 0x36 [0x02000000])
    let verify := didAll word (List.replicate 7 (.keyWordProgrammed 0))
    let both := didAll verify [.geometrySet 1 [0x00400040, 0x00200100, 0x10000000, 0, 0], .activate 2 [0]]
    (takes s (.commitAbort 1 [0]) && takes s (.commitAbort 1 [0, 0]) && takes commissioned (.reopen 1 [0]) &&
      takes commissioned (.reopen 1 [0, 0]) && takes factory (.restart 1 [0]) && takes factory (.restart 1 [0, 0]) &&
      takes pending (.restart 1 [0]) && takes verify (.restart 1 [0]) && takes both (.restart 1 [0]) &&
      takes word (.restart 1 [0]) && takes s (.restart 1 [0])) = true ∧
    s.life.lifecycle = .committing ∧ s.life.commit.isSome = true ∧ s.eng.holdCommit = some 0x51 ∧ s.key.prog = none ∧
    s.store.activatePending = false ∧ commissioned.eng.hold = none ∧
    factory.life.lifecycle ≠ .starting ∧ factory.eng.holdKeyLock = none ∧ factory.eng.holdCommit = none ∧
    factory.key.prog = none ∧ factory.life.commit = none ∧ factory.ret.waiting = [] ∧ factory.ret.later = [] ∧
    factory.store.activatePending = false ∧ factory.eng.holdActivate = none ∧ pending.store.activatePending = true ∧
    pending.eng.holdActivate = some 2 ∧ pending.ret.queue.length < 64 ∧ pending.eng.holdKeyLock = none ∧
    pending.key.prog = none ∧ pending.life.commit = none ∧ pending.ret.waiting = [] ∧
    both.store.activatePending = true ∧ both.eng.holdActivate = some 2 ∧ both.key.prog = some ⟨2, .verify⟩ ∧
    both.eng.holdKeyLock = some 0x36 ∧ both.ret.waiting = [] ∧ both.ret.later = [] ∧ both.life.commit = none ∧
    word.key.prog = some ⟨2, .word 0⟩ ∧ word.eng.holdKeyLock.isSome = true ∧
    (let two := didAll word [.geometrySet 1 [0x00400040, 0x00200100, 0x10000000, 0, 0], .activate 2 [0]]
     takes two (.restart 1 [0]) = true ∧ two.eng.holdActivate = some 2 ∧ two.key.prog = some ⟨2, .word 0⟩ ∧
     newest (did two (.restart 1 [0])) = some (.failed .aborted, [])) ∧
    (((did both (.restart 1 [0])).outbox.drop both.outbox.length).map fun r => (r.tag, r.completion, r.payload)) =
      [(2, .failed .aborted, []), (0x36, .failed .aborted, [0x02020000]), (1, .done, [])] := by
  decide +kernel

/-- Phase WORDS with a clean word and with one that has two faults, phase ERASE and phase TRAILER at the last operation. -/
theorem witness_CommitSteps :
    let erase := did committable (.commit 0x51 [0])
    let words := did erase (.flashOperationEnd false [])
    let bad := didAll words [.storageFault .b 0 1, .storageFault .b 0 2]
    let phase (s : State) := s.life.commit.map fun c => (c.phase, c.stop, c.taken, c.n)
    phase words = some (.words, none, 0, 9) ∧ words.life.lifecycle = .committing ∧ words.canonical = true ∧
    words.life.commit.map (fun c => c.page.length) = some ((12 + 0) % 64) ∧ words.buf.fetch = none ∧
    words.store.scrub = [] ∧ words.store.findingAt .b 0 = .clean ∧ bad.store.findingAt .b 0 = .uncorrectable ∧
    phase erase = some (.erase, none, 0, 9) ∧ erase.life.commit.map Commit.ops = some [.erase 0] ∧
    erase.region.selected = some 5 ∧ (erase.region.entry 5).isSome = true ∧
    FlashOp.failed (.erase 0) false (FlashOp.apply (.erase 0) false [] erase.life.flash) = false ∧
    trailing.life.commit.map Commit.ops = some [.program 0 [1, 2, 3]] ∧ trailing.eng.holdCommit = some 0x51 ∧
    trailing.canonical = true ∧ trailing.eng.inHand = none ∧
    FlashOp.failed (.program 0 [1, 2, 3]) false (FlashOp.apply (.program 0 [1, 2, 3]) false [] trailing.life.flash) = false ∧
    FlashOp.failed (.program 0 [1, 2, 3]) false (FlashOp.apply (.program 0 [1, 2, 3]) false [1, 2, 4] trailing.life.flash) =
      true := by decide +kernel

/-- A stopped commit with sector 0 to erase, behind a page and at once: by a flash failure, an uncorrectable word and an
abort, with a COMMIT ABORT waiting and without. -/
theorem witness_CommitSteps_stopped :
    let words := didAll committable [.commit 0x51 [0], .flashOperationEnd false []]
    let ecc := didAll words [.storageFault .b 0 1, .storageFault .b 0 2, .commitReaderWord]
    let flash := did trailing (.flashOperationEnd true [])
    let abort := did words (.commitAbort 0x55 [0])
    let left (s : State) := s.life.commit.map fun c => (c.ops, c.stop)
    left (did trailing (.commitAbort 0x55 [0])) = some ([.program 0 [1, 2, 3], .erase 0], some (.abort false)) ∧
    left flash = some ([.erase 0], some (.flash 0)) ∧ flash.eng.holdRestart = none ∧
    left ecc = some ([.erase 0], some (.ecc .b 0)) ∧ left abort = some ([.erase 0], some (.abort false)) ∧
    abort.eng.inHand = some (.abort 0x55) ∧ abort.eng.holdCommit = some 0x51 ∧ blockFree .life abort = true ∧
    (did flash (.commitAbort 0x55 [0])).eng.inHand = some (.abort 0x55) := by decide +kernel

/-- A COMMIT reply that cannot be posted while one of the lifecycle controller waits: the COMMIT ABORT stays in hand, and
completes when the transmission's end lets it be posted (R138, R147). -/
theorem test_abort_waits :
    let r : Reply := ⟨7, 0x80, .failed .flash, factory.summary, []⟩
    let abort := didAll committable [.commit 0x51 [0], .flashOperationEnd false [], .commitAbort 0x55 [0]]
    let full : State := { abort with ret := ⟨List.replicate 64 r, [⟨.life, false, r⟩], [], .sending 320⟩ }
    let s := did full (.flashOperationEnd false [])
    let t := did s (.replyTransmissionEnd 0)
    blockFree .life full = false ∧ full.eng.inHand = some (.abort 0x55) ∧ full.eng.holdRestart = none ∧
    s.life.lifecycle = .factory ∧ s.eng.inHand = some (.abort 0x55) ∧ s.ret.later.map Post.tag = [0x51] ∧
    s.ret.waiting.map (fun w => w.reply.tag) = [7] ∧ t.eng.inHand = none ∧ t.ret.later = [] ∧
    t.ret.waiting.map (fun w => (w.poster, w.reply.tag)) = [(.life, 0x51), (.engine, 0x55)] := by decide +kernel

/-- A commit that a RESTART has stopped, and what the end of its erase then posts. -/
theorem witness_CommitSteps_restart :
    let restart := didAll committable [.commit 0x51 [0], .flashOperationEnd false [], .restart 0x56 [0]]
    let t := did restart (.flashOperationEnd true [])
    restart.life.commit.map (fun c => (c.ops, c.stop)) = some ([.erase 0], some (.abort true)) ∧
    restart.eng.holdRestart = some 0x56 ∧ restart.eng.restarting = true ∧ restart.eng.inHand = none ∧
    restart.eng.holdActivate = none ∧ restart.eng.holdKeyLock = none ∧ restart.ret.waiting = [] ∧
    restart.ret.later = [] ∧ (t.outbox.drop restart.outbox.length).map (fun r => (r.tag, r.completion, r.payload)) =
        [(0x51, .failed .aborted, [0x02000000, 0]), (0x56, .done, [])] ∧ t.life.lifecycle = .committing ∧
    t.life.commitFailed = true := by decide +kernel

/-- The last of nine words: the flash, once its last page has ended, holds the words placed, that word, and the CRC with
its complement (Table 42). -/
theorem witness_CommitSteps_image :
    let words := didAll committable [.commit 0x51 [0], .flashOperationEnd false []]
    let header : List Word := [0x7140C1A5, 3, 0x00400040, 0x00200100, 0x10000000, 0, 0, 0x05000000, 0x3A980F3C, 0x10000FAA,
      0x000A0A00 ||| 0x01000000, 9]
    let s : State := { words with life := { words.life with
      commit := some ⟨.b, 9, .words, 8, none, [], header ++ [1, 2, 3, 4, 5, 6, 7, 8], 0xABCD0123, false⟩ } }
    let crc := crc32From 0xABCD0123 [0, 0, 0, 0]
    words.life.commit.map Commit.page = some header ∧
    (did s .commitReaderWord).life.commit.map (fun c => flashWords (flashAhead c.ops s.life.flash) 0 23) =
      some (header ++ [1, 2, 3, 4, 5, 6, 7, 8, 0, crc, ~~~crc]) := by decide +kernel

/-- Carrying a CRC-32 over two strings of bytes. -/
theorem crc32From_append (r : Word) (a b : List Byte) : crc32From r (a ++ b) = crc32From (crc32From r a) b := by
  simp [crc32From]

/-- The image of a set: geometry 64 × 64, P = 32, K = 1, region 5, nine words. -/
def image : List Word :=
  headerWords ⟨64, 64, 32, 1, 0, [4096]⟩ 5 ⟨15000, ⟨3900, 4096, 4010⟩, 0⟩ .start ++ [1, 2, 3, 4, 5, 6, 7, 8, 9]

/-- The CRC of that image, three words at a time. -/
theorem image_crc : crc32 (wordsBytes image) = 0xF124CFC8 := by
  have e : wordsBytes image = wordsBytes [0x7140C1A5, 0x00000003, 0x00400040]
      ++ wordsBytes [0x00200100, 0x10000000, 0x00000000]
      ++ wordsBytes [0x00000000, 0x05000000, 0x3A980F3C]
      ++ wordsBytes [0x10000FAA, 0x010A0A00, 0x00000009]
      ++ wordsBytes [0x00000001, 0x00000002, 0x00000003]
      ++ wordsBytes [0x00000004, 0x00000005, 0x00000006]
      ++ wordsBytes [0x00000007, 0x00000008, 0x00000009] := by
    decide +kernel
  have c0 : crc32From 0xFFFFFFFF (wordsBytes [0x7140C1A5, 0x00000003, 0x00400040]) = 0xE928744F := by decide +kernel
  have c1 : crc32From 0xE928744F (wordsBytes [0x00200100, 0x10000000, 0x00000000]) = 0xC9A6A356 := by decide +kernel
  have c2 : crc32From 0xC9A6A356 (wordsBytes [0x00000000, 0x05000000, 0x3A980F3C]) = 0x586FD576 := by decide +kernel
  have c3 : crc32From 0x586FD576 (wordsBytes [0x10000FAA, 0x010A0A00, 0x00000009]) = 0x44505507 := by decide +kernel
  have c4 : crc32From 0x44505507 (wordsBytes [0x00000001, 0x00000002, 0x00000003]) = 0x6539D4EC := by decide +kernel
  have c5 : crc32From 0x6539D4EC (wordsBytes [0x00000004, 0x00000005, 0x00000006]) = 0x5CDAF260 := by decide +kernel
  have c6 : crc32From 0x5CDAF260 (wordsBytes [0x00000007, 0x00000008, 0x00000009]) = 0xF124CFC8 := by decide +kernel
  rw [e, crc32]
  simp only [crc32From_append, c0, c1, c2, c3, c4, c5, c6]

/-- The part in the image load, its flash holding the image with its trailer. -/
def loading : State :=
  { State.reset with life := { State.reset.life with
      startUp := .load .header, flash := flashWrite [] 0 (image ++ [0xF124CFC8, ~~~0xF124CFC8]) } }

theorem witness_ImageLoadsBack :
    loading.powered = true ∧ loading.canonical = true ∧ loading.life.lifecycle = .starting ∧
    loading.life.startUp = .load .header ∧ (Geometry.mk 64 64 32 1 0 [4096]).valid = true ∧
    (Profile.mk 15000 ⟨3900, 4096, 4010⟩ 0).inRange = true ∧
    [1, 2, 3, 4, 5, 6, 7, 8, 9].length = (Geometry.mk 64 64 32 1 0 [4096]).count ∧
    loading.region.entries.length = 16 ∧
    flashWords loading.life.flash 0 (14 + (Geometry.mk 64 64 32 1 0 [4096]).count) =
      image ++ [crc32 (wordsBytes image), ~~~(crc32 (wordsBytes image))] := by
  rw [image_crc]
  decide +kernel

/-- Every phase of start-up; flashes that fail each test of R144, and one that fails none but the last. -/
theorem witness_StartUpSteps :
    let at_ (u : StartUp) : State := { State.reset with life := { State.reset.life with startUp := u } }
    let with_ (m : Nat) (w : Word) : State := { loading with life := { loading.life with
      flash := flashWrite loading.life.flash m [w] } }
    State.reset.powered = true ∧ State.reset.canonical = true ∧ State.reset.life.lifecycle = .starting ∧
    State.reset.life.startUp = .scan ∧ (at_ (.load .header)).life.startUp = .load .header ∧
    flashWord State.reset.life.flash 0 ≠ 0x7140C1A5 ∧ State.reset.buf.fetch = none ∧ State.reset.store.scrub = [] ∧
    (at_ (.load (.image imageHeader 8 0))).canonical = true ∧ 8 < imageHeader.n ∧
    (at_ (.load (.zero .blank none 786431))).life.startUp = .load (.zero .blank none 786431) ∧ 786431 < 786432 ∧
    (at_ (.load (.zero .blank none 1572863))).life.startUp = .load (.zero .blank none 1572863) ∧ 1572863 < 1572864 ∧
    ({ State.reset with buf := { State.reset.buf with fetch := some 0 } } : State).canonical = true ∧
    (with_ 1 2).canonical = true ∧ flashWord (with_ 1 2).life.flash 0 = 0x7140C1A5 ∧
    bits (flashWord (with_ 1 2).life.flash 1) 1 0 ≠ 3 ∧
    (geometryOf (flashWords (with_ 3 0).life.flash 2 5)).valid = false ∧
    bits (flashWord (with_ 11 8).life.flash 11) 19 0 ≠ (geometryOf (flashWords (with_ 11 8).life.flash 2 5)).count ∧
    16 ≤ bits (flashWord (with_ 7 0x10000000).life.flash 7) 31 24 ∧
    16383 < bits (flashWord (with_ 8 0x40000000).life.flash 8) 31 16 ∧
    4096 < bits (flashWord (with_ 9 0x1001).life.flash 9) 15 0 ∧
    roundingOf (bits (flashWord (with_ 10 0x000A0A30).life.flash 10) 7 4) = none ∧
    (headerOf (flashWords loading.life.flash 0 12)).isSome = true ∧
    (headerOf (flashWords (with_ 7 0x05000002).life.flash 0 12)).map (fun h =>
      h.profile.required &&& ~~~(with_ 7 0x05000002).key.lockedClasses) = some 2 ∧
    flashWord (with_ 21 0).life.flash (12 + 9) = 0 := by decide +kernel

/-- The loader's writes after the last image word, of a trailer that matches and of one that does not; and the first
write where the flash holds no image. -/
theorem test_loader_writes :
    let at_ (u : StartUp) : State := { loading with life := { loading.life with startUp := u } }
    let last (crc : Word) := (did (at_ (.load (.image imageHeader 9 crc))) (.loaderWordWrite false)).life.startUp
    let blank : State := { loading with life := { loading.life with flash := [] } }
    imageHeader.n = 9 ∧ (did blank (.loaderWordWrite false)).life.startUp = .load (.zero .blank none 1) ∧
    last 0xF124CFC8 = .load (.zero .valid (some imageHeader) 10) ∧ last 0 = .load (.zero .invalid none 1) := by
  decide +kernel

/-- A part with nothing in progress, and one in a commit with an erase, a page or nothing in progress. -/
theorem witness_PowerSteps :
    let erase := did committable (.commit 0x51 [0])
    let words := did erase (.flashOperationEnd false [])
    factory.powered = true ∧ factory.key.prog = none ∧ factory.life.commit = none ∧
    (did factory (.powerRemoval false 0 [])).powered = false ∧ (Instr.pixelProcess).wf = true ∧
    erase.life.commit.map (fun c => (c.ops, c.phase)) = some ([.erase 0], .erase) ∧ erase.canonical = true ∧
    erase.key.prog = none ∧ words.life.commit.map Commit.ops = some [] ∧
    trailing.life.commit.map (fun c => (c.ops, c.phase, c.crcEnded)) = some ([.program 0 [1, 2, 3]], .trailer, false) ∧
    (12 + 9) / 64 = 0 ∧ trailing.canonical = true ∧
    (didAll trailing [.commitAbort 0x55 [0], .flashOperationEnd false []]).life.commit.map
      (fun c => (c.ops, c.crcEnded)) = some ([.erase 0], true) := by decide +kernel

/-- A key word, the verify and the void word in progress; the word left blank, partly programmed and complete. -/
theorem witness_PowerSteps_key :
    let s := did staged (.keyLock 0x36 [0x02000000])
    let good := didAll s (List.replicate 7 (.keyWordProgrammed 0))
    let void := didAll s (.keyWordProgrammed 0x00020000 :: List.replicate 6 (.keyWordProgrammed 0) ++ [.keyVerifyEnd])
    let first (mark : Bool) (w : Word) := (did s (.powerRemoval mark w [])).key.areaWord 2 0
    s.powered = true ∧ s.canonical = true ∧ s.life.commit = none ∧ s.key.prog = some ⟨2, .word 0⟩ ∧
    s.key.record 2 = ⟨.locking, some ⟨2, 16, keyCheck⟩⟩ ∧ KeyFields.ok ⟨2, 16, keyCheck⟩ = true ∧
    good.key.prog = some ⟨2, .verify⟩ ∧ void.key.prog = some ⟨2, .void 1⟩ ∧ first false 0xFFFFFFFF = .blank ∧
    first true 0x10 = ⟨0x10, true⟩ ∧ first true 0xFFFFFFFF = ⟨0x00020010, true⟩ := by decide +kernel

/-- Power removed in phase TRAILER: the page of the CRC is not begun, cut off with a bit to go, programmed but not read
back; and the erase of a commit that had programmed it before it stopped, and of one that had not (R139). -/
theorem test_power_cut :
    let ops : List FlashOp := [.program 0 (List.replicate 13 1 ++ [5, ~~~5])]
    let s (c : Commit) : State := { trailing with life := { trailing.life with commit := some c } }
    let page : Commit := ⟨.b, 1, .trailer, 1, none, ops, [], 5, false⟩
    let whole := flashAhead ops trailing.life.flash
    let erase (ended : Bool) : Commit := { page with stop := some (.abort false), ops := [.erase 0], crcEnded := ended }
    let cut (u : State) (todo : List Word) : State := did u (.powerRemoval false 0 todo)
    trailerPaired whole 1 = true ∧ trailerPaired (cut (s page) (List.replicate 15 0xFFFFFFFF)).life.flash 1 = false ∧
      trailerPaired (cut (s page) [1]).life.flash 1 = false ∧ (cut (s page) [0]).life.flash = whole ∧
      (erase true).trailerEnded [0xFFFFFFFF] = true ∧ (erase false).trailerEnded [] = false ∧
      page.isCrcPage (.program 0 [5]) = true ∧ page.isCrcPage (.program 1 [5]) = false := by decide +kernel

/-- The reply of a STATUS on the lane, and that of a RESTART; replies that wait, with another of the block to post behind
and without; and a RESTART whose last owed reply waits. -/
theorem witness_TransmissionEnds :
    let s := did factory (.status 1 [0])
    let t := did factory (.restart 3 [0])
    let r : Reply := ⟨1, 1, .done, factory.summary, []⟩
    let full (w : List Waiter) (l : List Post) : State :=
      { factory with ret := ⟨List.replicate 64 r, w, l, .sending 320⟩ }
    let owed : State := { full [⟨.key, true, r⟩] [] with eng := { factory.eng with
      restarting := true, holdRestart := some 3 } }
    s.powered = true ∧ s.ret.lane = .sending 320 ∧ s.ret.queue.length = 1 ∧ s.ret.queue.map Reply.isRestart = [false] ∧
    s.ret.waiting = [] ∧ s.eng.holdRestart = none ∧ t.ret.lane = .sending 320 ∧
    t.ret.queue.map (fun r => (r.code, r.completion)) = [(0x03, .done)] ∧
    (full [⟨.engine, false, r⟩, ⟨.life, false, r⟩] []).ret.waiting ≠ [] ∧
    (full [⟨.life, false, r⟩] [⟨.life, false, 9, 0x80, .done, []⟩]).ret.later ≠ [] ∧ r.isRestart = false ∧
    (List.replicate 63 r).length < 64 ∧ owed.eng.holdActivate = none ∧ owed.eng.holdKeyLock = none ∧
    owed.eng.holdCommit = none ∧ owed.ret.later = [] ∧
    (did owed (.replyTransmissionEnd 0)).eng.holdRestart = none ∧ newest (did owed (.replyTransmissionEnd 0)) = some (.done, []) := by
  decide +kernel

/-- A BYPASS frame, a FULL frame, an input frame that ends a free-run frame, one that cuts the frame before it, and one
that cuts a frame complete on the link whose pixel still waits: the measured size is then absent (R24). -/
theorem witness_InputFrameStarts :
    let s := measured
    let t := did factory .deadlineExpiry
    let late := didAll factory [.inputFrameStart 0, .pixelReceived 1 1 1, .rowEnd, .inputFrameEnd]
    let cut := didAll factory [.inputFrameStart 0, .pixelReceived 1 1 1]
    factory.quiet = true ∧ factory.timing.free = false ∧
    decideMode false false factory.pipe.pending.mode factory.pipe.pending.geometry factory.rx.measured ≠ .full ∧
    s.quiet = true ∧ s.timing.free = false ∧
    decideMode false false s.pipe.pending.mode s.pipe.pending.geometry s.rx.measured = .full ∧
    t.quiet = true ∧ t.timing.free = true ∧ t.rx.prevStart = none ∧
    late.rx.frame = none ∧ late.timing.owedEnd = some ⟨⟨1, 1⟩, 0⟩ ∧ late.timing.free = false ∧
    late.store.activatePending = false ∧ late.rx.measured = some ⟨1, 1⟩ ∧ cut.rx.frame.isSome = true ∧
    (did late (.inputFrameStart 9)).rx.measured = none ∧
    (did late (.inputFrameStart 9)).mon.ring.map (fun r => (r.frame, r.measured)) = [(1, some ⟨1, 1⟩)] := by
  decide +kernel

/-- RUNNING and FREE_RUN, with a reply of the store waiting and with none. -/
theorem witness_FrameStartCompletesActivate :
    let s := didAll factory [.deadlineExpiry, .geometrySet 1 [0x00400040, 0x00200100, 0x10000000, 0, 0], .activate 2 [0]]
    let r : Reply := ⟨1, 0x28, .done, factory.summary, []⟩
    let waits : State := { pending with ret := ⟨List.replicate 64 r, [⟨.store, false, r⟩], [], .sending 320⟩ }
    ({ pending with store := { pending.store with activatePending := false } } : State).quiet = true ∧
    pending.timing.free = false ∧ pending.timing.deadline.isSome = true ∧ pending.store.activatePending = true ∧
    pending.eng.holdActivate = some 2 ∧ blockFree .store pending = true ∧ blockFree .store waits = false ∧
    ({ s with store := { s.store with activatePending := false } } : State).quiet = true ∧ s.timing.free = true ∧
    s.store.activatePending = true ∧ s.eng.holdActivate = some 2 ∧
    newest (did s .freeRunFrameEnd) = some (.done, [1, 2]) ∧ newest (did s (.inputFrameStart 5)) = some (.done, [1, 2]) := by
  decide +kernel

/-- A frame between rows, one in a row, no frame; and lines in HEADER, held and not. -/
theorem witness_RowsAndFramesEnd :
    let s := didAll factory [.inputFrameStart 0, .pixelReceived 1 1 1, .pixelReceived 1 1 1, .pixelReceived 1 1 1, .rowEnd,
      .pixelProcess, .pixelProcess, .pixelProcess]
    let t := didAll (did factory (.inputFrameStart 0)) (pixelsOf (marker ++ [0]))
    factory.rx.frame = none ∧ s.powered = true ∧ s.pipe.input = [] ∧
    s.rx.frame.map (fun f => (f.dec.state, f.row, f.rowOpen, f.firstRow)) = some (.idle, 0, false, some 3) ∧
    (did factory (.inputFrameStart 0)).pipe.input = [] ∧
    (did factory (.inputFrameStart 0)).rx.frame.map (fun f => (f.dec.state, f.rowOpen)) = some (.idle, true) ∧
    t.rx.frame.map (fun f => (f.dec.state, f.rowOpen)) = some (.header, true) ∧ t.eng.hold = none ∧
    t.pipe.input ≠ [] ∧ (did t .linkLoss).eng.hold = some ⟨.check, none, some 0, none, 1⟩ ∧
    (did t .linkLoss).timing.owedEnd = some ⟨⟨3, 1⟩, 1⟩ := by decide +kernel

/-- Rings of three and four reports, and the last pixel of a frame that has ended on the link. -/
theorem witness_FrameReportsFiled :
    let s := didAll factory [.inputFrameStart 0, .pixelReceived 1 1 1, .rowEnd, .inputFrameEnd]
    let r := frameReport none 0 factory
    [r, r, r].length < 4 ∧ [r, r, r, r] = r :: [r, r, r] ∧ [r, r, r, r].length = 4 ∧ s.powered = true ∧
    s.pipe.input = [⟨0, 0, 1, 1, 1⟩] ∧ s.timing.owedEnd = some ⟨⟨1, 1⟩, 0⟩ ∧ s.pipe.live.mode ≠ .full ∧
    rowDecided s 0 = true := by decide +kernel

theorem witness_FreeRunSteps :
    let s := did factory .deadlineExpiry
    factory.quiet = true ∧ factory.timing.free = false ∧ factory.timing.deadline.isSome = true ∧ s.quiet = true ∧
    s.timing.free = true ∧ s.timing.frame = .freeRun ⟨3840, 2160⟩ 0 ∧ 0 < 3840 * 2160 ∧ s.mon.acc.isSome = true ∧
    s.pipe.live.window.holds 3839 2159 = true ∧ s.pipe.live.window.holds 3840 0 = false := by decide +kernel

/-- The deadline in an input frame, a line in HEADER in progress, and behind a frame whose pixel still waits. -/
theorem witness_FreeRunSteps_cut :
    let late := didAll factory [.inputFrameStart 0, .pixelReceived 1 1 1, .rowEnd, .inputFrameEnd]
    let cut := didAll (did factory (.inputFrameStart 0)) (pixelsOf (marker ++ [0]))
    let t := did cut .deadlineExpiry
    late.rx.frame = none ∧ late.timing.owedEnd = some ⟨⟨1, 1⟩, 0⟩ ∧ late.timing.free = false ∧
    late.timing.deadline.isSome = true ∧ late.store.activatePending = false ∧ cut.rx.frame.isSome = true ∧
    cut.timing.deadline.isSome = true ∧ t.mon.ring.map (fun r => (r.frame, r.measured)) = [(1, some ⟨3, 1⟩)] ∧
    t.eng.hold = some ⟨.check, none, some 0, none, 1⟩ ∧ t.timing.frame = .freeRun ⟨3840, 2160⟩ 0 := by decide +kernel

/-- A row of pixels whose bytes are those given, up to a whole number of pixels. -/
def rowOfBytes (l : List Byte) : List (BitVec 12 × BitVec 12 × BitVec 12) :=
  (List.range (l.length / 3)).map fun i => ((l.getD (3 * i) 0).setWidth 12 <<< 4,
    (l.getD (3 * i + 1) 0).setWidth 12 <<< 4, (l.getD (3 * i + 2) 0).setWidth 12 <<< 4)

/-- A frame in which row 0 was a service line and row 1 has not begun. -/
def nextLine : State :=
  didAll (did factory (.inputFrameStart 0)) (pixelsOf (lineHeader 0) ++ [.rowEnd])

/-- The second row of a frame whose region has closed, between rows and in one. -/
theorem witness_PixelsReceived :
    let s := didAll factory [.inputFrameStart 0, .pixelReceived 1 1 1, .rowEnd]
    let t := did s (.pixelReceived 1 1 1)
    let look (u : State) := u.rx.frame.map fun f => (f.regionOpen, f.dec.state, f.pixels, f.row, f.rowOpen)
    factory.rx.frame = none ∧ s.powered = true ∧ look s = some (false, .idle, 1, 0, false) ∧
    look t = some (false, .idle, 1, 1, true) := by decide +kernel

/-- A row that differs from the marker in its eighth byte only, as row 0 and as row 1. -/
theorem witness_PixelsReceived_marker :
    let s := did factory (.inputFrameStart 0)
    let row := rowOfBytes (marker.take 7 ++ [0, 0])
    let t := didAll s (row.map fun (r, g, b) => .pixelReceived r g b)
    s.rx.frame.map RxFrame.beforeRow = some true ∧ row.length = 3 ∧ (rowBytes row).take 8 ≠ marker ∧
    nextLine.rx.frame.map RxFrame.beforeRow = some true ∧ t.eng.hold = none ∧ rowDecided t 0 = true ∧
    t.rx.frame.map (fun f => (f.regionOpen, f.dec.state, f.pixels)) = some (false, .idle, 3) := by decide +kernel

/-- A pixel of a FULL frame before and after the words it reads are delivered, and one of a BYPASS frame; the first pixel
of band 1 with row 3 to list, with a fetch in progress and with none, and that of the last band, which lists none. -/
theorem witness_PixelsProcessed :
    let s := didAll { fetched with buf := { fetched.buf with slots := [none, none, none], fetch := none } }
      [.pixelReceived 1 1 1, .rowEnd]
    let t := didAll fetched ([.pixelReceived 1 1 1, .rowEnd] ++ List.replicate 3 .fetchWordRead)
    let b := didAll factory [.inputFrameStart 0, .pixelReceived 1 1 1, .rowEnd]
    let wide : Geometry := ⟨64, 128, 32, 1, 0, [4096]⟩
    let band : State := { fetched with
      pipe := { fetched.pipe with live := { fetched.pipe.live with geometry := some wide }, input := [⟨0, 32, 1, 1, 1⟩] }
      buf := ⟨[some ⟨.b, 0, 3, []⟩, some ⟨.b, 1, 3, []⟩, some ⟨.b, 2, 3, []⟩], [], none, 0⟩ }
    s.powered = true ∧ s.pipe.input = ⟨0, 0, 1, 1, 1⟩ :: [] ∧ s.timing.owedEnd = none ∧
    pixelReady ⟨0, 0, 1, 1, 1⟩ (beginBand 0 0 s) = false ∧ t.pipe.input = ⟨0, 0, 1, 1, 1⟩ :: [] ∧
    t.timing.owedEnd = none ∧ pixelReady ⟨0, 0, 1, 1, 1⟩ (beginBand 0 0 t) = true ∧ b.pipe.live.mode ≠ .full ∧
    rowDecided b 0 = true ∧ band.powered = true ∧ band.pipe.live.mode = .full ∧ band.timing.owedEnd = none ∧
    wide.rows = 5 ∧ 32 / wide.p = 1 ∧ 96 / wide.p = 3 ∧ (0 : Nat) % wide.p = 0 ∧
    (beginBand 0 32 band).buf = ⟨[some ⟨.b, 3, 0, []⟩, some ⟨.b, 1, 3, []⟩, some ⟨.b, 2, 3, []⟩], [], some 0, 1⟩ ∧
    (beginBand 0 96 band).buf.fetchList = [] ∧ (beginBand 0 96 band).buf.fetch = none ∧
    (beginBand 0 32 { band with buf := { band.buf with fetch := some 2 } }).buf.fetchList = [3] := by
  decide +kernel

theorem witness_ChannelEvents :
    let m : Monitor := { Monitor.start with counts := ⟨16777215, 0, 16777214, 0⟩ }
    let r := chain (caseContext ⟨64, 64, 32, 1, 3, [1]⟩ .d10 .d10) (fun _ _ _ => ⟨0x1FF00000, false⟩) .r 0 0 16383
    m.capture = none ∧ r.conditions.any (Marks.get ⟨false, false, true, false⟩) = true ∧
    r.conditions.any (Marks.get ⟨true, false, false, false⟩) = false := by decide +kernel

/-- The least geometry, and the largest correction at each end of R36's range for S = 3. -/
theorem witness_CorrectionRange :
    (Geometry.mk 64 64 32 1 3 [1]).valid = true ∧
    correction ⟨64, 64, 32, 1, 3, [1]⟩ (fun _ _ _ => ⟨0x1FF00000, false⟩) .r 0 0 1 = 4088 ∧
    correction ⟨64, 64, 32, 1, 3, [1]⟩ (fun _ _ _ => ⟨0x20000000, false⟩) .r 0 0 1 = -4096 := by decide +kernel

/-- A tie: the example of R35, case 2, exactly half way. -/
theorem witness_CorrectionRounded :
    let look := lookOf 10 [((2, 5, 0), -20), ((3, 5, 0), -12), ((2, 6, 0), -28), ((3, 6, 0), -4)]
    let g : Geometry := ⟨3840, 2160, 8, 2, 1, [2048, 12288]⟩
    g.valid = true ∧ (2 * (correction g look .g 19 42 1024 * (blendDivisor g 1024 : Int) -
        blendNumerator g look .g 19 42 1024 * 2 ^ g.s)).natAbs = ((blendDivisor g 1024 : Int)).natAbs := by decide +kernel

/-- Two looks that differ only in a poisoned word's value. -/
theorem witness_PoisonedValueUnused :
    let look (w : Word) : Look := fun j i k => if (j, i, k) = (0, 0, 0) then ⟨w, true⟩ else ⟨5, false⟩
    ∀ j i k, (look 1 j i k).poisoned = (look 2 j i k).poisoned ∧
      ((look 2 j i k).poisoned = false → (look 1 j i k).word = (look 2 j i k).word) := by
  intro look j i k
  simp only [look]
  split <;> simp

theorem witness_ChainByMode :
    (16383 : Nat) ≤ 16383 ∧ (⟨4096, 0, 0⟩ : Gains).of .r ≤ 4096 ∧ LiveContext.start.mode = .bypass ∧
    (caseContext ⟨64, 64, 32, 1, 3, [1]⟩ .d10 .d10).mode = .full ∧ (Geometry.mk 64 64 32 1 3 [1]).valid = true := by
  decide +kernel

theorem witness_OutputRange :
    let c := caseContext ⟨64, 64, 32, 1, 3, [1]⟩ .d10 .d10
    let d : LiveContext := { c with masks := ⟨true, true, true, true⟩ }
    c.mode = .full ∧ c.geometry.isSome = true ∧
    (chain d (fun _ _ _ => ⟨0x1FF00000, false⟩) .r 0 0 16383).conditions.any d.masks.get = true := by decide +kernel

/-- A line of one packet, its reserved byte not zero, and two bytes of padding, in row 0 and in row 1, with room for one
packet. -/
theorem witness_ServiceLineDelivers :
    let ps : List (Byte × Packet) := [(0xA5, ⟨1, 1, [0]⟩)]
    let s : State := { did factory (.inputFrameStart 0) with eng := { factory.eng with
      queue := List.replicate 319 ⟨1, 1, [0]⟩ } }
    let row := rowOfBytes (serviceLine ps ++ [0, 0])
    s.powered = true ∧ s.rx.frame.map RxFrame.beforeRow = some true ∧ s.rx.frame.map RxFrame.nextRow = some 0 ∧
    nextLine.rx.frame.map RxFrame.beforeRow = some true ∧ nextLine.rx.frame.map RxFrame.nextRow = some 1 ∧
    rowBytes row = serviceLine ps ++ [0, 0] ∧ (∀ p ∈ ps, payloadOk p.2.payload = true) ∧
    (packetsBytes ps).length ≤ 23028 ∧ s.eng.queue.length + ps.length ≤ 320 ∧
    (didAll nextLine (row.map fun (r, g, b) => .pixelReceived r g b)).eng.queue = [⟨1, 1, [0]⟩] := by decide +kernel

/-- A header with a wrong check, one with a byte count of 23,029; each fault of a packet, after a good one; and a full
command queue, held and not. -/
theorem witness_LineFaultsHold :
    let s := did factory (.inputFrameStart 0)
    let long : List Byte := [0x59, 0xF5] ++ halfBytes (crc16 (marker ++ [0x59, 0xF5]))
    let good : List (Byte × Packet) := [(0, ⟨1, 1, [0]⟩)]
    let bad : List Byte := (packetBytes 0 ⟨2, 1, [7]⟩).take 9 ++ [0]
    s.powered = true ∧ s.rx.frame.map RxFrame.beforeRow = some true ∧ s.eng.hold = none ∧
    rowBytes (rowOfBytes (marker ++ long)) = marker ++ long ++ [] ∧
    23028 < (halfAt long 0).toNat ∧ crc16 (marker ++ ([0, 0, 0, 0] : List Byte).take 2) ≠ halfAt [0, 0, 0, 0] 2 ∧
    (packetsBytes good).length = 10 ∧ faultyPacket (13 - 10) [9] ∧ faultyPacket (20 - 10) [9, 9, 128] ∧
    faultyPacket (20 - 10) [9, 9, 1] ∧ faultyPacket (20 - 10) bad ∧
    rowBytes (rowOfBytes (lineHeader 20 ++ packetsBytes good ++ bad ++ [0])) =
      lineHeader 20 ++ packetsBytes good ++ bad ++ [0] ∧
    (didAll s ((rowOfBytes (lineHeader 20 ++ packetsBytes good ++ bad ++ [0])).map
      fun (r, g, b) => .pixelReceived r g b)).eng.hold = some ⟨.check, none, some 0, none, 1⟩ ∧
    320 ≤ ({ held with eng := { held.eng with queue := List.replicate 320 ⟨1, 1, [0]⟩ } } : State).eng.queue.length := by
  unfold faultyPacket
  and_intros
  all_goals decide +kernel

end Sys2Proof.Tests
end

section
/-! SUPPORT. Commands that leave the frames alone: what a frame rests on, and one lemma that says which commands change
none of it. -/

namespace Sys2Proof

/-- The events by which a frame begins, goes on or ends, on the link or at the panel. -/
def Instr.ofFrames : Instr → Bool
  | .inputFrameStart _ | .rowEnd | .inputFrameEnd | .linkLoss | .pixelReceived _ _ _ | .pixelProcess | .deadlineExpiry
  | .freeRunFrameEnd | .freeRunPixelSent => true
  | _ => false

/-- The commands that write the monitor (R50, R53, R55). -/
def Instr.ofMonitor : Instr → Bool
  | .windowSet _ _ | .conditionsRead _ _ | .captureClear _ _ => true
  | _ => false

namespace Machine

/-- Both states have the same timing, link receiver, live context and monitor. -/
def SameFrames (s t : State) : Prop :=
  t.timing = s.timing ∧ t.rx = s.rx ∧ t.pipe.live = s.pipe.live ∧ t.mon = s.mon

theorem SameFrames.refl (s : State) : SameFrames s s := ⟨rfl, rfl, rfl, rfl⟩

theorem SameFrames.trans {s t u : State} (h : SameFrames s t) (h' : SameFrames t u) : SameFrames s u := by
  obtain ⟨h1, h2, h3, h4⟩ := h
  obtain ⟨g1, g2, g3, g4⟩ := h'
  exact ⟨g1.trans h1, g2.trans h2, g3.trans h3, g4.trans h4⟩

section

variable {s t : State}

/-- A station command keeps the frames if what it does once taken keeps them. -/
theorem take_sameFrames {p : Packet} {run : State → State} (h : take p run s = .next t)
    (hr : ∀ u, SameFrames u (run u)) : SameFrames s t := by
  obtain rfl | rfl := take_next s h
  · exact SameFrames.trans (t := dequeue s) ⟨rfl, rfl, rfl, rfl⟩ (hr _)
  · exact .refl _

/-- An event keeps the frames if what it does in a part with power keeps them. -/
theorem event_sameFrames {run : State → State} (h : event run s = .next t) (hr : ∀ u, SameFrames u (run u)) :
    SameFrames s t := by
  obtain rfl | rfl := event_next s h
  · exact hr s
  · exact .refl _

theorem done_sameFrames (p : Packet) (l : List Word) (h : SameFrames s t) : SameFrames s (done p l t) :=
  h.trans (by simp [SameFrames, done])

theorem refuse_sameFrames (p : Packet) (r : Reason) (l : List Word) (h : SameFrames s t) :
    SameFrames s (refuse p r l t) :=
  h.trans (by simp [SameFrames, refuse])

theorem refuseWrite_sameFrames (p : Packet) (r : Reason) (a : Option Nat) : SameFrames s (refuseWrite p r a s) := by
  unfold refuseWrite
  split <;> simp [SameFrames, refuse]

theorem tested_sameFrames {p : Packet} {g : Gate} {tests : List (Bool × Reason)} {run : State → State}
    (h : SameFrames s (run s)) : SameFrames s (tested p g tests run s) := by
  obtain ⟨r, _, hr⟩ | ⟨_, hr⟩ := tested_spec s p g tests run <;> rw [hr]
  · exact refuse_sameFrames p r [] (.refl s)
  · exact h

theorem testedRun_sameFrames {p : Packet} {role : Role} {n : Nat} {run : Bank → Nat → State → State}
    (h : ∀ bank ea, SameFrames s (run bank ea s)) : SameFrames s (testedRun p role n run s) := by
  unfold testedRun
  dsimp only
  split
  · exact refuseWrite_sameFrames ..
  · split
    · exact refuseWrite_sameFrames ..
    · exact h _ _

/-- A command that is tested and answers at once, in a state with the same frames. -/
theorem take_tested_done_sameFrames {p : Packet} {g : Gate} {tests : List (Bool × Reason)} {l : State → List Word}
    {f : State → State} (h : take p (tested p g tests fun u => done p (l u) (f u)) s = .next t)
    (hf : ∀ u, SameFrames u (f u)) : SameFrames s t :=
  take_sameFrames h fun u => tested_sameFrames (run := fun u => done p (l u) (f u)) (done_sameFrames p (l u) (hf u))

/-! ### Commands with a body of their own -/

theorem anchorSet_sameFrames {tag : Byte} {l : List Word} (h : exec (.anchorSet tag l) s = .next t) :
    SameFrames s t := by
  simp only [exec, execAnchorSet] at h
  refine take_sameFrames h fun u => ?_
  repeat' split
  case h_3.isFalse.isFalse => exact done_sameFrames _ _ ⟨rfl, rfl, rfl, rfl⟩
  all_goals exact refuse_sameFrames _ _ _ (.refl u)

theorem nodeWrite_sameFrames {tag : Byte} {l : List Word} (h : exec (.nodeWrite tag l) s = .next t) :
    SameFrames s t := by
  simp only [exec, execNodeWrite] at h
  refine take_sameFrames h fun u => ?_
  split
  · exact refuseWrite_sameFrames ..
  · exact refuseWrite_sameFrames ..
  · refine testedRun_sameFrames fun bank ea => ?_
    split
    · exact done_sameFrames _ _ (.refl u)
    · exact ⟨rfl, rfl, rfl, rfl⟩

theorem nodeFill_sameFrames {tag : Byte} {l : List Word} (h : exec (.nodeFill tag l) s = .next t) :
    SameFrames s t := by
  simp only [exec, execNodeFill] at h
  refine take_sameFrames h fun u => ?_
  split
  · exact refuseWrite_sameFrames ..
  · exact refuseWrite_sameFrames ..
  · split
    · exact refuseWrite_sameFrames ..
    · refine testedRun_sameFrames fun bank ea => ?_
      split
      · exact done_sameFrames _ _ (.refl u)
      · exact ⟨rfl, rfl, rfl, rfl⟩

theorem nodeRead_sameFrames {tag : Byte} {l : List Word} (h : exec (.nodeRead tag l) s = .next t) :
    SameFrames s t := by
  simp only [exec, execNodeRead] at h
  refine take_sameFrames h fun u => ?_
  repeat' split
  case h_3.isFalse.isFalse.isFalse => exact ⟨rfl, rfl, rfl, rfl⟩
  all_goals exact refuse_sameFrames _ _ _ (.refl u)

theorem geometryRead_sameFrames {tag : Byte} {l : List Word} (h : exec (.geometryRead tag l) s = .next t) :
    SameFrames s t := by
  simp only [exec, execGeometryRead] at h
  refine take_sameFrames h fun u => tested_sameFrames ?_
  split
  · exact refuse_sameFrames _ _ _ (.refl u)
  · exact done_sameFrames _ _ (.refl u)

theorem pipeSet_sameFrames {tag : Byte} {l : List Word} (h : exec (.pipeSet tag l) s = .next t) : SameFrames s t := by
  simp only [exec, execPipeSet] at h
  refine take_sameFrames h fun u => ?_
  repeat' split
  case h_2.isFalse => exact done_sameFrames _ _ ⟨rfl, rfl, rfl, rfl⟩
  all_goals exact refuse_sameFrames _ _ _ (.refl u)

theorem regionSelect_sameFrames {tag : Byte} {l : List Word} (h : exec (.regionSelect tag l) s = .next t) :
    SameFrames s t := by
  simp only [exec, execRegionSelect] at h
  refine take_sameFrames h fun u => tested_sameFrames ?_
  split
  · exact refuse_sameFrames _ _ _ (.refl u)
  · exact done_sameFrames _ _ ⟨rfl, rfl, rfl, rfl⟩

theorem keyOpen_sameFrames {tag : Byte} {l : List Word} (h : exec (.keyOpen tag l) s = .next t) : SameFrames s t := by
  simp only [exec, execKeyOpen] at h
  refine take_sameFrames h fun u => tested_sameFrames ?_
  repeat' split
  case isFalse.isFalse => exact done_sameFrames _ _ ⟨rfl, rfl, rfl, rfl⟩
  all_goals exact refuse_sameFrames _ _ _ (.refl u)

theorem keyLock_sameFrames {tag : Byte} {l : List Word} (h : exec (.keyLock tag l) s = .next t) : SameFrames s t := by
  simp only [exec, execKeyLock] at h
  refine take_sameFrames h fun u => tested_sameFrames ?_
  split
  · exact refuse_sameFrames _ _ _ ⟨rfl, rfl, rfl, rfl⟩
  · exact ⟨rfl, rfl, rfl, rfl⟩

theorem commit_sameFrames {tag : Byte} {l : List Word} (h : exec (.commit tag l) s = .next t) : SameFrames s t := by
  simp only [exec, execCommit] at h
  refine take_sameFrames h fun u => tested_sameFrames ?_
  repeat' split
  case isFalse.isFalse => exact ⟨rfl, rfl, rfl, rfl⟩
  all_goals exact refuse_sameFrames _ _ _ (.refl u)

theorem commitAbort_sameFrames {tag : Byte} {l : List Word} (h : exec (.commitAbort tag l) s = .next t) :
    SameFrames s t := by
  simp only [exec, execCommitAbort] at h
  refine take_sameFrames h fun u => tested_sameFrames ?_
  split
  · exact done_sameFrames _ _ (.refl u)
  · exact ⟨rfl, rfl, rfl, rfl⟩

theorem restart_sameFrames {tag : Byte} {l : List Word} (h : exec (.restart tag l) s = .next t) : SameFrames s t :=
  take_sameFrames h fun _ => tested_sameFrames (by simp [SameFrames])

theorem unknownCode_sameFrames {tag code : Byte} {l : List Word} (h : exec (.unknownCode tag code l) s = .next t) :
    SameFrames s t := by
  simp only [exec, execUnknownCode] at h
  split at h
  · cases h
  · exact take_sameFrames h fun u => tested_sameFrames (.refl u)

/-! ### Events -/

theorem storageFault_sameFrames {bank : Bank} {a i : Nat} (h : exec (.storageFault bank a i) s = .next t) :
    SameFrames s t := by
  simp only [exec, execStorageFault] at h
  split at h
  · cases h
  · exact event_sameFrames h fun u => ⟨rfl, rfl, rfl, rfl⟩

theorem keyArrayStorageFault_sameFrames {slot w i : Nat} (h : exec (.keyArrayStorageFault slot w i) s = .next t) :
    SameFrames s t := by
  simp only [exec, execKeyArrayStorageFault] at h
  split at h
  · cases h
  · split at h <;> cases h <;> exact ⟨rfl, rfl, rfl, rfl⟩

theorem scrubWriteBack_sameFrames (h : exec .scrubWriteBack s = .next t) : SameFrames s t := by
  simp only [exec, execScrubWriteBack] at h
  refine event_sameFrames h fun u => ?_
  repeat' split
  all_goals exact ⟨rfl, rfl, rfl, rfl⟩

theorem engineWordWrite_sameFrames (h : exec .engineWordWrite s = .next t) : SameFrames s t := by
  simp only [exec, execEngineWordWrite] at h
  refine event_sameFrames h fun u => ?_
  repeat' split
  all_goals simp [SameFrames]

theorem engineWordRead_sameFrames (h : exec .engineWordRead s = .next t) : SameFrames s t := by
  simp only [exec, execEngineWordRead] at h
  refine event_sameFrames h fun u => ?_
  repeat' split
  all_goals simp [SameFrames]

theorem commitReaderWord_sameFrames (h : exec .commitReaderWord s = .next t) : SameFrames s t := by
  simp only [exec, execCommitReaderWord] at h
  refine event_sameFrames h fun u => ?_
  repeat' split
  all_goals simp [SameFrames]

@[simp] theorem commitSucceeds_live (c : Commit) : (commitSucceeds c s).pipe.live = s.pipe.live := by
  simp [commitSucceeds]

theorem flashOperationEnd_sameFrames {e : Bool} {l : List Word} (h : exec (.flashOperationEnd e l) s = .next t) :
    SameFrames s t := by
  simp only [exec, execFlashOperationEnd] at h
  refine event_sameFrames h fun u => ?_
  repeat' split
  all_goals simp [SameFrames]

theorem keyWordProgrammed_sameFrames {w : Word} (h : exec (.keyWordProgrammed w) s = .next t) : SameFrames s t := by
  simp only [exec, execKeyWordProgrammed] at h
  refine event_sameFrames h fun u => ?_
  repeat' split
  all_goals simp [SameFrames]

theorem keyVerifyEnd_sameFrames (h : exec .keyVerifyEnd s = .next t) : SameFrames s t := by
  simp only [exec, execKeyVerifyEnd] at h
  refine event_sameFrames h fun u => ?_
  repeat' split
  all_goals simp [SameFrames]

theorem keyArrayScanEnd_sameFrames (h : exec .keyArrayScanEnd s = .next t) : SameFrames s t := by
  simp only [exec, execKeyArrayScanEnd] at h
  refine event_sameFrames h fun u => ?_
  split
  · exact ⟨rfl, rfl, rfl, rfl⟩
  · exact .refl u

theorem loaderWordWrite_sameFrames {f : Bool} (h : exec (.loaderWordWrite f) s = .next t) : SameFrames s t := by
  simp only [exec, execLoaderWordWrite] at h
  refine event_sameFrames h fun u => ?_
  repeat' split
  all_goals simp [SameFrames]

@[simp] theorem loadEnds_live (o : StartOutcome) (h : Option ImageHeader) :
    (loadEnds o h s).pipe.live = s.pipe.live := by
  unfold loadEnds
  split <;> rfl

@[simp] theorem finishLoad_live (p : LoadPhase) : (finishLoad p s).pipe.live = s.pipe.live := by
  unfold finishLoad
  split <;> simp

theorem startUpLoadEnd_sameFrames {f : Bool} (h : exec (.startUpLoadEnd f) s = .next t) : SameFrames s t := by
  simp only [exec, execStartUpLoadEnd] at h
  refine event_sameFrames h fun u => ?_
  repeat' split
  all_goals simp [SameFrames]

theorem replyTransmissionEnd_sameFrames {now : Nat} (h : exec (.replyTransmissionEnd now) s = .next t)
    (hs : (Instr.replyTransmissionEnd now).startsUp s = false) : SameFrames s t := by
  simp only [exec, execReplyTransmissionEnd, event, Instr.startsUp] at h hs
  split at h <;> cases h
  · repeat' split
    all_goals simp_all [SameFrames]
  · exact .refl s

end

/-- Start-up begins at power-on and at the end of RESTART's reply (R143). -/
theorem startsUp_next {c : Instr} {s t : State} (h : exec c s = .next t) (hs : c.startsUp s = true) :
    ∃ now u, t = startUpBegin now u := by
  cases c with
  | powerOn now => cases h; exact ⟨_, _, rfl⟩
  | replyTransmissionEnd now =>
    simp only [exec, execReplyTransmissionEnd, event, Instr.startsUp, Bool.and_eq_true] at h hs
    obtain ⟨hp, hr⟩ := hs
    rw [if_pos hp] at h
    split at hr
    · cases h
      simp_all only [if_true]
      exact ⟨_, _, rfl⟩
    · cases hr
  | _ => cases hs

/-- Every command that is not one of the frames or the monitor, and at which start-up does not begin, leaves the frames
as they are. -/
theorem exec_sameFrames {c : Instr} {s t : State} (h : exec c s = .next t) (hs : c.startsUp s = false)
    (hf : c.ofFrames = false) (hm : c.ofMonitor = false) : SameFrames s t := by
  cases c with
  | status tag l => exact take_tested_done_sameFrames h .refl
  | release tag l => exact take_tested_done_sameFrames h fun _ => ⟨rfl, rfl, rfl, rfl⟩
  | restart tag l => exact restart_sameFrames h
  | anchorSet tag l => exact anchorSet_sameFrames h
  | anchorRead tag l => exact take_tested_done_sameFrames h .refl
  | nodeWrite tag l => exact nodeWrite_sameFrames h
  | nodeRead tag l => exact nodeRead_sameFrames h
  | nodeFill tag l => exact nodeFill_sameFrames h
  | geometrySet tag l =>
    exact take_sameFrames h fun _ => tested_sameFrames (done_sameFrames _ _ ⟨rfl, rfl, rfl, rfl⟩)
  | geometryRead tag l => exact geometryRead_sameFrames h
  | activate tag l => exact take_sameFrames h fun _ => tested_sameFrames ⟨rfl, rfl, rfl, rfl⟩
  | logRead tag l => exact take_tested_done_sameFrames h .refl
  | logClear tag l => exact take_tested_done_sameFrames h fun _ => ⟨rfl, rfl, rfl, rfl⟩
  | pipeSet tag l => exact pipeSet_sameFrames h
  | pipeRead tag l => exact take_tested_done_sameFrames h .refl
  | reportRead tag l => exact take_tested_done_sameFrames h .refl
  | captureRead tag l => exact take_tested_done_sameFrames h .refl
  | profileWrite tag l =>
    exact take_sameFrames h fun _ => tested_sameFrames (done_sameFrames _ _ ⟨rfl, rfl, rfl, rfl⟩)
  | profileRead tag l => exact take_tested_done_sameFrames h .refl
  | regionSelect tag l => exact regionSelect_sameFrames h
  | keyOpen tag l => exact keyOpen_sameFrames h
  | keyData tag l =>
    simp only [exec, execKeyData] at h
    exact take_sameFrames h fun _ => tested_sameFrames (done_sameFrames _ _ ⟨rfl, rfl, rfl, rfl⟩)
  | keyLock tag l => exact keyLock_sameFrames h
  | keyAbandon tag l =>
    simp only [exec, execKeyAbandon] at h
    exact take_sameFrames h fun _ => tested_sameFrames (done_sameFrames _ _ ⟨rfl, rfl, rfl, rfl⟩)
  | keyQuery tag l => exact take_tested_done_sameFrames h .refl
  | commit tag l => exact commit_sameFrames h
  | commitAbort tag l => exact commitAbort_sameFrames h
  | reopen tag l => exact take_tested_done_sameFrames h fun _ => ⟨rfl, rfl, rfl, rfl⟩
  | unknownCode tag code l => exact unknownCode_sameFrames h
  | powerRemoval m w l => exact event_sameFrames h fun _ => ⟨rfl, rfl, rfl, rfl⟩
  | storageFault bank a i => exact storageFault_sameFrames h
  | fetchWordRead => exact event_sameFrames h fun _ => by simp [SameFrames]
  | scrubWriteBack => exact scrubWriteBack_sameFrames h
  | engineWordWrite => exact engineWordWrite_sameFrames h
  | engineWordRead => exact engineWordRead_sameFrames h
  | commitReaderWord => exact commitReaderWord_sameFrames h
  | flashOperationEnd e l => exact flashOperationEnd_sameFrames h
  | keyWordProgrammed w => exact keyWordProgrammed_sameFrames h
  | keyVerifyEnd => exact keyVerifyEnd_sameFrames h
  | keyArrayScanEnd => exact keyArrayScanEnd_sameFrames h
  | loaderWordWrite f => exact loaderWordWrite_sameFrames h
  | startUpLoadEnd f => exact startUpLoadEnd_sameFrames h
  | replyTransmissionEnd now => exact replyTransmissionEnd_sameFrames h hs
  | keyArrayStorageFault slot w i => exact keyArrayStorageFault_sameFrames h
  | powerOn now => cases hs
  | windowSet tag l => cases hm
  | conditionsRead tag l => cases hm
  | captureClear tag l => cases hm
  | _ => cases hf

end Machine
end Sys2Proof
end

section
/-! SUPPORT. The pixel path and the frame starts and ends, block by block: what a drain leaves alone and what it ends,
and what a frame start sets. -/

namespace Sys2Proof.Machine

variable (s : State)

/-! ### Steps -/

variable {s} in
/-- What holds of a state and of what an event makes of it holds after the event. -/
theorem event_keeps {t : State} {run : State → State} {P : State → Prop} (ht : event run s = .next t) (h : P s)
    (hr : P (run s)) : P t := by
  obtain rfl | rfl := event_next s ht
  · exact hr
  · exact h

/-! ### Reads and fetches -/

/-- A checked read changes nothing of the store but the log and the scrub queue (R76, R78). -/
@[simp] theorem Store.noteRead_frame (st : Store) (bank : Bank) (a : Nat) (n : BitVec 32) :
    (st.noteRead bank a n).bankA = st.bankA ∧ (st.noteRead bank a n).bankB = st.bankB ∧
    (st.noteRead bank a n).geomA = st.geomA ∧ (st.noteRead bank a n).geomB = st.geomB ∧
    (st.noteRead bank a n).active = st.active ∧ (st.noteRead bank a n).activatePending = st.activatePending := by
  unfold Store.noteRead
  dsimp only
  split <;> simp

/-- The geometry records, the roles and the pending mark of a store. -/
def Store.roles (st : Store) : Option Geometry × Option Geometry × Bank × Bool :=
  (st.geomA, st.geomB, st.active, st.activatePending)

@[simp] theorem noteRead_roles (bank : Bank) (a : Nat) : (noteRead bank a s).store.roles = s.store.roles := by
  simp [noteRead, Store.roles]

@[simp] theorem fetchRead_roles : (fetchRead s).store.roles = s.store.roles := by
  unfold fetchRead
  repeat' split
  all_goals simp

@[simp] theorem fetchFor_roles (p : InPixel) (n : Nat) : (fetchFor p n s).store.roles = s.store.roles := by
  induction n generalizing s with
  | zero => rfl
  | succ n ih =>
    unfold fetchFor
    split
    · rfl
    · split
      · simpa using ih (fetchRead s)
      · rfl

/-! ### Pixels sent -/

@[simp] theorem Monitor.sign_frame (m : Monitor) (v : Window) (x y r g b : Nat) :
    (m.sign v x y r g b).sticky = m.sticky ∧ (m.sign v x y r g b).counts = m.counts ∧
    (m.sign v x y r g b).trapped = m.trapped ∧ (m.sign v x y r g b).capture = m.capture ∧
    (m.sign v x y r g b).window = m.window ∧ (m.sign v x y r g b).ring = m.ring := by
  unfold Monitor.sign
  repeat' split
  all_goals simp

@[simp] theorem Monitor.foldl_raise_frame (m : Monitor) (l : List Condition) :
    (l.foldl Monitor.raise m).trapped = m.trapped ∧ (l.foldl Monitor.raise m).capture = m.capture ∧
    (l.foldl Monitor.raise m).window = m.window ∧ (l.foldl Monitor.raise m).acc = m.acc ∧
    (l.foldl Monitor.raise m).ring = m.ring := by
  induction l generalizing m with
  | nil => simp
  | cons c l ih => simpa [Monitor.raise] using ih (m.raise c)

@[simp] theorem Monitor.channel_frame (m : Monitor) (n : BitVec 32) (k : Marks) (x y : Nat) (ch : Channel)
    (r : ChainResult) :
    (m.channel n k x y ch r).window = m.window ∧ (m.channel n k x y ch r).acc = m.acc ∧
    (m.channel n k x y ch r).ring = m.ring := by
  unfold Monitor.channel
  dsimp only
  split <;> simp [Monitor.trap]

@[simp] theorem sendPixel_pipe (x y r g b : Nat) :
    (sendPixel x y r g b s).pipe.live = s.pipe.live ∧ (sendPixel x y r g b s).pipe.pending = s.pipe.pending ∧
    (sendPixel x y r g b s).pipe.input = s.pipe.input ∧ (sendPixel x y r g b s).mon.ring = s.mon.ring ∧
    (sendPixel x y r g b s).mon.window = s.mon.window := by simp [sendPixel]

@[simp] theorem processPixel_pipe (p : InPixel) :
    (processPixel p s).pipe.live = s.pipe.live ∧ (processPixel p s).pipe.pending = s.pipe.pending ∧
    (processPixel p s).pipe.input = s.pipe.input ∧ (processPixel p s).mon.ring = s.mon.ring ∧
    (processPixel p s).mon.window = s.mon.window := by
  unfold processPixel
  split <;> simp [processPicture]

/-! ### The drain (R24; log 7) -/

@[simp] theorem drainList_pipe (l : List InPixel) :
    (drainList l s).pipe.live = s.pipe.live ∧ (drainList l s).pipe.pending = s.pipe.pending ∧
    (drainList l s).mon.ring = s.mon.ring ∧ (drainList l s).mon.window = s.mon.window ∧
    (drainList l s).store.roles = s.store.roles := by
  induction l generalizing s with
  | nil => simp [drainList]
  | cons p l ih => simp [drainList, ih]

/-- No pixel waits once those that wait have been sent. -/
theorem drainList_input (l : List InPixel) (h : s.pipe.input = l) : (drainList l s).pipe.input = [] := by
  induction l generalizing s with
  | nil => exact h
  | cons p l ih => exact ih _ (by simp)

/-! ### Ends -/

theorem endWhenSent_of_none (h : s.timing.owedEnd = none) : endWhenSent s = s := by
  simp [endWhenSent, h]

theorem endWhenSent_of_waiting (h : s.pipe.input ≠ []) : endWhenSent s = s := by
  unfold endWhenSent
  split
  · contradiction
  · rfl

theorem endWhenSent_of_sent {e : EndedFrame} (h : s.timing.owedEnd = some e) (hi : s.pipe.input = []) :
    endWhenSent s = outputFrameEnd (some e.measured) e.serviceRows s := by
  simp [endWhenSent, h, hi]

/-- The drain of a frame whose end is owed: the pixels are sent and the frame's report is filed behind them. -/
theorem drain_of_some {e : EndedFrame} (h : s.timing.owedEnd = some e) :
    drain s = outputFrameEnd (some e.measured) e.serviceRows (drainList s.pipe.input s) :=
  endWhenSent_of_sent _ (by simp [h]) (drainList_input s _ rfl)

/-- The drain where no frame's end is owed. -/
theorem drain_of_none (h : s.timing.owedEnd = none) : drain s = drainList s.pipe.input s :=
  endWhenSent_of_none _ (by simp [h])

theorem drain_quiet (h : s.timing.owedEnd = none) (hi : s.pipe.input = []) : drain s = s := by
  rw [drain_of_none s h, hi]; rfl

theorem cutFrame_of_none (h : s.rx.frame = none) : cutFrame s = s := by
  simp [cutFrame, h]

/-- A cut of a frame in progress, as one update of the state before the end it may give (R6). -/
theorem cutFrame_of_some {f : RxFrame} (h : s.rx.frame = some f) :
    cutFrame s = endWhenSent { s with
      eng := s.engineCut f
      rx := { s.rx with frame := none, measured := none }
      timing.owedEnd := some ⟨cutSize f, s.rx.serviceRows⟩ } := by
  simp only [cutFrame, h, cutLine_eq]

@[simp] theorem outputFrameEnd_timing (z : Option Size) (n : Nat) :
    (outputFrameEnd z n s).timing = { s.timing with frame := .none, owedEnd := none } := rfl

@[simp] theorem endWhenSent_timing :
    (endWhenSent s).timing.free = s.timing.free ∧ (endWhenSent s).timing.frameNumber = s.timing.frameNumber ∧
    (endWhenSent s).timing.lastPeriod = s.timing.lastPeriod ∧ (endWhenSent s).timing.deadline = s.timing.deadline ∧
    (endWhenSent s).timing.raster = s.timing.raster := by
  unfold endWhenSent
  split <;> simp

@[simp] theorem drain_timing :
    (drain s).timing.free = s.timing.free ∧ (drain s).timing.frameNumber = s.timing.frameNumber ∧
    (drain s).timing.lastPeriod = s.timing.lastPeriod ∧ (drain s).timing.deadline = s.timing.deadline ∧
    (drain s).timing.raster = s.timing.raster := by simp [drain]

@[simp] theorem cutFrame_timing :
    (cutFrame s).timing.free = s.timing.free ∧ (cutFrame s).timing.frameNumber = s.timing.frameNumber ∧
    (cutFrame s).timing.lastPeriod = s.timing.lastPeriod ∧ (cutFrame s).timing.deadline = s.timing.deadline ∧
    (cutFrame s).timing.raster = s.timing.raster := by
  unfold cutFrame
  split <;> simp

/-! ### Starts -/

theorem completeActivate_of_none (h : s.store.activatePending = false) : completeActivate s = s := by
  simp [completeActivate, h]

/-- The row buffer at a frame start: in a FULL frame the fetch of row 0 has begun in the first slot, with rows 1 and 2
listed (R82, R84). -/
def startedBuffer (c : LiveContext) : RowBuffer :=
  if c.mode = .full then ⟨[some ⟨c.bank, 0, 0, []⟩, none, none], [1, 2], some 0, 0⟩ else .start

theorem startBuffer_eq : startBuffer s = { s with buf := startedBuffer s.pipe.live } := by
  by_cases h : s.pipe.live.mode = .full <;>
    simp [startBuffer, startedBuffer, h, beginFetch, RowBuffer.start, RowBuffer.place, List.findIdx?_cons]

/-- The live context that a frame start sets (R7, R11, R12). -/
def startedContext (free : Bool) (s : State) : LiveContext :=
  liveFrom s.pipe.pending
    (decideMode free (s.life.lifecycle == .starting) s.pipe.pending.mode s.pipe.pending.geometry s.rx.measured)
    (applyWindow s.mon.window (if free then some (freeRunRaster s) else s.rx.measured))

/-- A frame begun in a state in which a pending ACTIVATE has been completed (Table 12). -/
def startedFrame (free : Bool) (s : State) : State :=
  { s with
    pipe.live := startedContext free s
    mon := s.mon.frameStart
    timing.frame := if free then .freeRun (freeRunRaster s) 0 else .input
    buf := startedBuffer (startedContext free s) }

/-- The number of the frame that begins (R4). -/
def State.numbered (s : State) : State := { s with timing.frameNumber := s.timing.frameNumber + 1 }

/-- An output frame start as one update of the state in which the number has risen and an ACTIVATE is completed. -/
theorem outputFrameStart_eq (free : Bool) :
    outputFrameStart free s = startedFrame free (completeActivate s.numbered) := by
  unfold outputFrameStart State.numbered
  dsimp only
  generalize completeActivate _ = t
  exact startBuffer_eq _

theorem outputFrameStart_of_none (free : Bool) (h : s.store.activatePending = false) :
    outputFrameStart free s = startedFrame free s.numbered :=
  (outputFrameStart_eq s free).trans (congrArg (startedFrame free) (completeActivate_of_none _ h))

end Sys2Proof.Machine
end

section
/-! SUPPORT. Every step keeps frame reports consecutive and in step with the frame in progress. -/

namespace Sys2Proof.Machine

/-! ### The reports' numbers -/

/-- A number behind a rising list keeps it rising just where it follows the last one. -/
theorem risingByOne_append (l : List (BitVec 32)) (x : BitVec 32) :
    risingByOne (l ++ [x]) = (risingByOne l && l.getLast?.all fun y => x == y + 1) := by
  induction l with
  | nil => rfl
  | cons a l ih =>
    cases l with
    | nil => simp [risingByOne]
    | cons b l =>
      have hcons : risingByOne (a :: b :: (l ++ [x])) = (b == a + 1 && risingByOne (b :: l ++ [x])) := rfl
      rw [List.cons_append, List.cons_append, hcons, ih, List.getLast?_cons_cons, ← Bool.and_assoc]
      rfl

theorem risingByOne_tail {l : List (BitVec 32)} (h : risingByOne l = true) : risingByOne l.tail = true := by
  match l with
  | [] => rfl
  | [_] => rfl
  | _ :: _ :: _ =>
    simp only [risingByOne, Bool.and_eq_true] at h
    exact h.2

/-- A report filed with the number that follows the newest keeps the ring's numbers rising (R59, R60). -/
theorem pushReport_rising {m : Monitor} {r : Report} (h : risingByOne (m.ring.map Report.frame) = true)
    (hr : r.frame = m.newest + 1) : risingByOne ((pushReport m.ring r).map Report.frame) = true := by
  have hlast : ∀ l : List Report, risingByOne (l.map Report.frame) = true →
      (∀ q, l.getLast? = some q → m.ring.getLast? = some q) → risingByOne ((l ++ [r]).map Report.frame) = true := by
    intro l hl hsome
    rw [List.map_append, List.map_singleton, risingByOne_append, hl, List.getLast?_map]
    cases hq : l.getLast? with
    | none => rfl
    | some q => simp [hr, Monitor.newest, hsome q hq]
  unfold pushReport
  split
  · refine hlast _ (by simpa [List.map_tail] using risingByOne_tail h) fun q hq => ?_
    rw [List.getLast?_tail] at hq
    split at hq
    · cases hq
    · exact hq
  · exact hlast _ h fun q hq => hq

theorem pushReport_getLast? (ring : List Report) (r : Report) : (pushReport ring r).getLast? = some r := by
  simp [pushReport]

/-! ### The invariant, in two parts -/

/-- The reports' numbers are consecutive, and the newest is that of the frame before the one in progress, or that of the
last one started. -/
def State.ReportsFollow (s : State) : Prop :=
  risingByOne (s.mon.ring.map Report.frame) = true ∧
    s.timing.frameNumber = if s.timing.frame = .none then s.mon.newest else s.mon.newest + 1

/-- The timing state, the frame at the panel and the frame being received agree. -/
def State.FramesAgree (s : State) : Prop :=
  match s.timing.frame with
  | .none => s.timing.free = false ∧ s.rx.frame = none ∧ s.timing.owedEnd = none
  | .input => s.timing.free = false ∧ (s.rx.frame.isSome ^^ s.timing.owedEnd.isSome) = true
  | .freeRun _ _ => s.timing.free = true ∧ s.rx.frame = none ∧ s.timing.owedEnd = none

variable {s t : State}

theorem framesFollow_iff : s.framesFollow = true ↔ s.ReportsFollow ∧ s.FramesAgree := by
  unfold State.framesFollow State.ReportsFollow State.FramesAgree
  cases s.timing.frame <;> simp [and_assoc]

/-- The invariant reads the ring, the timing, and whether a frame is being received. -/
theorem framesFollow_congr (h : s.framesFollow = true) (hring : t.mon.ring = s.mon.ring) (htiming : t.timing = s.timing)
    (hrx : t.rx.frame.isSome = s.rx.frame.isSome) : t.framesFollow = true := by
  have hnone : t.rx.frame.isNone = s.rx.frame.isNone := by simp [← Option.not_isSome, hrx]
  simpa only [State.framesFollow, Monitor.newest, hring, htiming, hrx, hnone] using h

theorem SameFrames.framesFollow (h : SameFrames s t) (hs : s.framesFollow = true) : t.framesFollow = true := by
  obtain ⟨htiming, hrx, _, hmon⟩ := h
  exact framesFollow_congr hs (by rw [hmon]) htiming (by rw [hrx])

theorem event_framesFollow {run : State → State} (ht : event run s = .next t) (h : s.framesFollow = true)
    (hr : (run s).framesFollow = true) : t.framesFollow = true :=
  event_keeps (P := fun u => u.framesFollow = true) ht h hr

/-- While no end is owed and no frame is received, the frame at the panel is none, or a free-run one. -/
theorem State.FramesAgree.between (h : s.FramesAgree) (hrx : s.rx.frame = none) (howed : s.timing.owedEnd = none) :
    s.timing.free = false ∧ s.timing.frame = .none ∨ s.timing.free = true ∧ s.timing.frame ≠ .none := by
  unfold State.FramesAgree at h
  split at h <;> simp_all

/-! ### Frame ends -/

theorem outputFrameEnd_reportsFollow (z : Option Size) (n : Nat) (h : s.ReportsFollow) (hf : s.timing.frame ≠ .none) :
    (outputFrameEnd z n s).ReportsFollow := by
  obtain ⟨hring, hnumber⟩ := h
  rw [if_neg hf] at hnumber
  refine ⟨pushReport_rising hring hnumber, ?_⟩
  simp [outputFrameEnd, Monitor.newest, pushReport_getLast?, frameReport]

theorem endWhenSent_framesFollow (h : s.framesFollow = true) : (endWhenSent s).framesFollow = true := by
  cases he : s.timing.owedEnd with
  | none => rwa [endWhenSent_of_none s he]
  | some e =>
    by_cases hi : s.pipe.input = []
    · rw [endWhenSent_of_sent s he hi]
      obtain ⟨hr, ha⟩ := framesFollow_iff.mp h
      unfold State.FramesAgree at ha
      split at ha <;> rename_i hf <;> obtain ⟨hfree, hrest⟩ := ha
      · simp [he] at hrest
      · have hrx : s.rx.frame = none := by simpa [he] using hrest
        refine framesFollow_iff.mpr ⟨outputFrameEnd_reportsFollow _ _ hr (by simp [hf]), ?_⟩
        exact ⟨hfree, hrx, rfl⟩
      · simp [he] at hrest
    · rwa [endWhenSent_of_waiting s hi]

theorem drainList_framesFollow (l : List InPixel) (h : s.framesFollow = true) : (drainList l s).framesFollow = true :=
  framesFollow_congr h (by simp) (by simp) (by simp)

theorem drain_framesFollow (h : s.framesFollow = true) : (drain s).framesFollow = true :=
  endWhenSent_framesFollow (drainList_framesFollow _ h)

/-- A drain leaves no end owed. -/
@[simp] theorem drain_owedEnd (s : State) : (drain s).timing.owedEnd = none := by
  cases he : s.timing.owedEnd with
  | none => simp [drain_of_none s he, he]
  | some e => simp [drain_of_some s he, outputFrameEnd]

theorem cutFrame_framesFollow (h : s.framesFollow = true) : (cutFrame s).framesFollow = true := by
  cases hf : s.rx.frame with
  | none => rwa [cutFrame_of_none s hf]
  | some f =>
    rw [cutFrame_of_some s hf]
    obtain ⟨hr, ha⟩ := framesFollow_iff.mp h
    refine endWhenSent_framesFollow (framesFollow_iff.mpr ⟨hr, ?_⟩)
    unfold State.FramesAgree at ha ⊢
    dsimp only
    split at ha <;> simp_all

@[simp] theorem cutFrame_rxFrame (s : State) : (cutFrame s).rx.frame = none := by
  cases hf : s.rx.frame with
  | none => rwa [cutFrame_of_none s hf]
  | some f => simp [cutFrame_of_some s hf]

@[simp] theorem cutLate_rxFrame (s : State) : (cutLate s).rx.frame = s.rx.frame := by
  unfold cutLate
  split <;> rfl

theorem cutLate_framesFollow (h : s.framesFollow = true) : (cutLate s).framesFollow = true :=
  framesFollow_congr h (by simp) (by simp) (by simp)

theorem endFrame_framesFollow {f : RxFrame} (h : s.framesFollow = true) (hf : s.rx.frame = some f) :
    (endFrame f s).framesFollow = true := by
  obtain ⟨hr, ha⟩ := framesFollow_iff.mp h
  refine endWhenSent_framesFollow (framesFollow_iff.mpr ⟨hr, ?_⟩)
  unfold State.FramesAgree at ha ⊢
  dsimp only
  split at ha <;> simp_all

/-! ### Frame starts -/

/-- What a frame start does to the timing: the number rises and a frame of the kind asked for is in progress. -/
theorem outputFrameStart_timing (free : Bool) (s : State) :
    (outputFrameStart free s).timing = { s.timing with
        frameNumber := s.timing.frameNumber + 1, frame := (outputFrameStart free s).timing.frame } ∧
      if free then ∃ z, (outputFrameStart free s).timing.frame = .freeRun z 0
      else (outputFrameStart free s).timing.frame = .input := by
  rw [outputFrameStart_eq]
  cases free <;> simp [startedFrame, State.numbered]

@[simp] theorem outputFrameStart_ring (free : Bool) (s : State) : (outputFrameStart free s).mon.ring = s.mon.ring := by
  rw [outputFrameStart_eq]
  simp [startedFrame, Monitor.frameStart, State.numbered]

theorem outputFrameStart_reportsFollow (free : Bool) (h : s.ReportsFollow) (hf : s.timing.frame = .none) :
    (outputFrameStart free s).ReportsFollow := by
  obtain ⟨hring, hnumber⟩ := h
  obtain ⟨htiming, hframe⟩ := outputFrameStart_timing free s
  have hne : (outputFrameStart free s).timing.frame ≠ .none := by
    cases free
    · simp [show _ = _ from hframe]
    · obtain ⟨z, hz⟩ := hframe
      simp [hz]
  rw [if_pos hf] at hnumber
  refine ⟨by rwa [outputFrameStart_ring], ?_⟩
  rw [if_neg hne, htiming]
  simp [Monitor.newest, hnumber]

/-- A frame start with no frame in progress on the link or at the panel begins a free-run frame in FREE_RUN. -/
theorem outputFrameStart_free_framesFollow (h : s.ReportsFollow) (hf : s.timing.frame = .none)
    (hfree : s.timing.free = true) (hrx : s.rx.frame = none) (howed : s.timing.owedEnd = none) :
    (outputFrameStart true s).framesFollow = true := by
  obtain ⟨htiming, z, hz⟩ := outputFrameStart_timing true s
  refine framesFollow_iff.mpr ⟨outputFrameStart_reportsFollow true h hf, ?_⟩
  unfold State.FramesAgree
  rw [hz, htiming]
  simp [hfree, hrx, howed]

/-- A free-run frame that an input frame start ends has its report filed; then no frame is in progress (R8). -/
theorem endFreeRun_reportsFollow (hr : s.ReportsFollow) (ha : s.FramesAgree) (hrx : s.rx.frame = none)
    (howed : s.timing.owedEnd = none) :
    (endFreeRun s).ReportsFollow ∧ (endFreeRun s).timing.frame = .none ∧ (endFreeRun s).timing.free = false ∧
      (endFreeRun s).timing.owedEnd = none := by
  unfold endFreeRun
  obtain ⟨hfree, hf⟩ | ⟨hfree, hf⟩ := ha.between hrx howed
  · rw [if_neg (by simp [hfree])]
    exact ⟨hr, hf, hfree, howed⟩
  · rw [if_pos hfree]
    exact ⟨outputFrameEnd_reportsFollow none 0 hr hf, rfl, rfl, rfl⟩

theorem inputFrameStart_framesFollow {now : Nat} (h : s.framesFollow = true)
    (ht : exec (.inputFrameStart now) s = .next t) : t.framesFollow = true := by
  simp only [exec, execInputFrameStart] at ht
  refine event_framesFollow ht h ?_
  obtain ⟨hr, ha⟩ := framesFollow_iff.mp (drain_framesFollow (cutLate_framesFollow (cutFrame_framesFollow h)))
  obtain ⟨hr', hf', hfree', howed'⟩ := endFreeRun_reportsFollow hr ha (by simp) (by simp)
  generalize endFreeRun (drain (cutLate (cutFrame s))) = u at hr' hf' hfree' howed' ⊢
  have hstart : (outputFrameStart false (takePeriod now u)).ReportsFollow :=
    outputFrameStart_reportsFollow false hr' hf'
  obtain ⟨htiming, hframe⟩ := outputFrameStart_timing false (takePeriod now u)
  refine framesFollow_iff.mpr ⟨hstart, ?_⟩
  unfold State.FramesAgree
  rw [show _ = OutFrame.input from hframe, htiming]
  exact ⟨hfree', by simp [takePeriod, howed']⟩

theorem deadlineExpiry_framesFollow (h : s.framesFollow = true) (ht : exec .deadlineExpiry s = .next t) :
    t.framesFollow = true := by
  simp only [exec, execDeadlineExpiry] at ht
  refine event_framesFollow ht h ?_
  split
  · exact h
  · rename_i hd
    have hfree : s.timing.free = false := by simp_all
    obtain ⟨hr, ha⟩ := framesFollow_iff.mp (drain_framesFollow (cutFrame_framesFollow h))
    obtain ⟨_, hf⟩ | ⟨hfree', _⟩ := ha.between (by simp) (by simp)
    · exact outputFrameStart_free_framesFollow hr hf rfl (by simp) (by simp)
    · simp [hfree] at hfree'

theorem freeRunFrameEnd_framesFollow (h : s.framesFollow = true) (ht : exec .freeRunFrameEnd s = .next t) :
    t.framesFollow = true := by
  simp only [exec, execFreeRunFrameEnd] at ht
  refine event_framesFollow ht h ?_
  split
  · rename_i hfree
    obtain ⟨hr, ha⟩ := framesFollow_iff.mp h
    unfold State.FramesAgree at ha
    split at ha <;> rename_i hf <;> simp only [hfree, Bool.true_eq_false, false_and, true_and] at ha
    obtain ⟨hrx, howed⟩ := ha
    exact outputFrameStart_free_framesFollow (outputFrameEnd_reportsFollow none 0 hr (by simp [hf])) rfl hfree hrx rfl
  · exact h

/-! ### Rows, pixels and ends on the link -/

@[simp] theorem setDec_rxFrame_isSome (d : Decoder) (s : State) :
    (setDec d s).rx.frame.isSome = s.rx.frame.isSome := by
  unfold setDec
  split <;> simp_all

@[simp] theorem lineFault_rxFrame_isSome (r : Nat) (d : Decoder) (s : State) :
    (lineFault r d s).rx.frame.isSome = s.rx.frame.isSome := by simp [lineFault]

/-- The decoder takes a byte within the frame being received. -/
theorem decodeByte_rxFrame_isSome (s : State) (x : Byte) : (decodeByte s x).rx.frame.isSome = s.rx.frame.isSome := by
  unfold decodeByte
  split
  · rfl
  · rename_i f hf
    dsimp only
    split
    · split
      · simp
      · unfold decideMarker
        split <;> simp [setDec, hf]
    · unfold decideHeader
      dsimp only
      repeat' split
      all_goals simp
    · unfold decidePacket
      dsimp only
      repeat' split
      all_goals simp
    · rfl
    · rfl

theorem foldl_decodeByte_frame (l : List Byte) (s : State) :
    (l.foldl decodeByte s).mon = s.mon ∧ (l.foldl decodeByte s).timing = s.timing ∧
      (l.foldl decodeByte s).pipe = s.pipe ∧ (l.foldl decodeByte s).rx.frame.isSome = s.rx.frame.isSome := by
  induction l generalizing s with
  | nil => simp
  | cons x l ih => simp [ih, decodeByte_rxFrame_isSome]

/-- A pixel counted in its row and passed to the pipeline, its bytes not yet decoded (R156, R157). -/
def countedPixel (f : RxFrame) (r g b : BitVec 12) (s : State) : State :=
  { s with
    rx.frame := some { openRow f with pixels := nextCount (openRow f).pixels }
    pipe.input := s.pipe.input ++ [⟨(openRow f).pixels, (openRow f).row, r, g, b⟩] }

theorem pixelReceived_eq {r g b : BitVec 12} {f : RxFrame} (hp : s.powered = true) (hf : s.rx.frame = some f) :
    exec (.pixelReceived r g b) s = .next ((pixelBytes r g b).foldl decodeByte (countedPixel f r g b s)) := by
  simp only [exec, execPixelReceived]
  rw [event_powered s _ hp]
  simp only [hf]
  rfl

theorem pixelReceived_next {r g b : BitVec 12} (ht : exec (.pixelReceived r g b) s = .next t) :
    t = s ∨ ∃ f, s.rx.frame = some f ∧ t = (pixelBytes r g b).foldl decodeByte (countedPixel f r g b s) := by
  simp only [exec, execPixelReceived] at ht
  obtain rfl | rfl := event_next s ht
  · cases hf : s.rx.frame with
    | none => exact .inl rfl
    | some f => exact .inr ⟨f, rfl, rfl⟩
  · exact .inl rfl

theorem pixelReceived_framesFollow {r g b : BitVec 12} (h : s.framesFollow = true)
    (ht : exec (.pixelReceived r g b) s = .next t) : t.framesFollow = true := by
  obtain rfl | ⟨f, hf, rfl⟩ := pixelReceived_next ht
  · exact h
  · obtain ⟨hmon, htiming, _, hrx⟩ := foldl_decodeByte_frame (pixelBytes r g b) (countedPixel f r g b s)
    exact framesFollow_congr h (by rw [hmon]; rfl) htiming (by rw [hrx, hf]; rfl)

theorem rowEnd_framesFollow (h : s.framesFollow = true) (ht : exec .rowEnd s = .next t) : t.framesFollow = true := by
  simp only [exec, execRowEnd] at ht
  refine event_framesFollow ht h ?_
  split
  · exact h
  · rename_i f hf
    split
    · exact framesFollow_congr h (by simp) (by simp) (by simp [hf])
    · exact h

theorem inputFrameEnd_framesFollow (h : s.framesFollow = true) (ht : exec .inputFrameEnd s = .next t) :
    t.framesFollow = true := by
  simp only [exec, execInputFrameEnd] at ht
  refine event_framesFollow ht h ?_
  split
  · exact h
  · rename_i f hf
    split
    · exact cutFrame_framesFollow h
    · exact endFrame_framesFollow h hf

theorem pixelProcess_framesFollow (h : s.framesFollow = true) (ht : exec .pixelProcess s = .next t) :
    t.framesFollow = true := by
  simp only [exec, execPixelProcess] at ht
  refine event_framesFollow ht h ?_
  split
  · exact h
  · split
    · exact endWhenSent_framesFollow (framesFollow_congr h (by simp) (by simp) (by simp))
    · exact framesFollow_congr h (by simp) (by simp) (by simp)

theorem freeRunPixelSent_framesFollow (h : s.framesFollow = true) (ht : exec .freeRunPixelSent s = .next t) :
    t.framesFollow = true := by
  simp only [exec, execFreeRunPixelSent] at ht
  refine event_framesFollow ht h ?_
  split
  · rename_i z n hf
    split
    · simpa [State.framesFollow, hf, Monitor.newest] using h
    · exact h
  · exact h

/-! ### The monitor's commands and start-up -/

/-- A command that answers at once does nothing to the frames but what it does before it answers. -/
theorem take_tested_done_next {p : Packet} {g : Gate} {tests : List (Bool × Reason)} {l : State → List Word}
    {f : State → State} (h : take p (tested p g tests fun u => done p (l u) (f u)) s = .next t) :
    SameFrames s t ∨ ∃ u, SameFrames s u ∧ SameFrames (f u) t := by
  obtain rfl | rfl := take_next s h
  · have hq : SameFrames s (dequeue s) := ⟨rfl, rfl, rfl, rfl⟩
    obtain ⟨r, _, hr⟩ | ⟨_, hr⟩ := tested_spec (dequeue s) p g tests fun u => done p (l u) (f u) <;> rw [hr]
    · exact .inl (refuse_sameFrames p r [] hq)
    · exact .inr ⟨_, hq, done_sameFrames p _ (.refl _)⟩
  · exact .inl (.refl _)

/-- The commands that write the monitor leave the reports and all else that the frames rest on; CAPTURE CLEAR alone
clears the capture record, CONDITIONS READ alone the flags (R50, R53). -/
theorem ofMonitor_next {c : Instr} (h : exec c s = .next t) (hc : c.ofMonitor = true) :
    (t.timing = s.timing ∧ t.rx = s.rx ∧ t.pipe.live = s.pipe.live ∧ t.mon.ring = s.mon.ring) ∧
    (t.mon.capture = s.mon.capture ∨ t.mon.capture = none ∧ ∃ tag l, c = .captureClear tag l) ∧
    (t.mon.sticky = s.mon.sticky ∨ ∃ tag l, c = .conditionsRead tag l) := by
  cases c with
  | windowSet tag l =>
    obtain ⟨h1, h2, h3, h4⟩ | ⟨u, ⟨h1, h2, h3, h4⟩, ⟨g1, g2, g3, g4⟩⟩ := take_tested_done_next h <;> simp_all
  | conditionsRead tag l =>
    obtain ⟨h1, h2, h3, h4⟩ | ⟨u, ⟨h1, h2, h3, h4⟩, ⟨g1, g2, g3, g4⟩⟩ := take_tested_done_next h <;> simp_all
  | captureClear tag l =>
    obtain ⟨h1, h2, h3, h4⟩ | ⟨u, ⟨h1, h2, h3, h4⟩, ⟨g1, g2, g3, g4⟩⟩ := take_tested_done_next h <;> simp_all
  | _ => cases hc

theorem startUpBegin_framesFollow (now : Nat) (s : State) : (startUpBegin now s).framesFollow = true := rfl

/-- Every command keeps the frames in step. -/
theorem exec_framesFollow {c : Instr} (hs : s.framesFollow = true) (h : exec c s = .next t) :
    t.framesFollow = true := by
  cases hu : c.startsUp s with
  | true =>
    obtain ⟨now, u, rfl⟩ := startsUp_next h hu
    exact startUpBegin_framesFollow now u
  | false =>
    cases hm : c.ofMonitor with
    | true =>
      obtain ⟨⟨htiming, hrx, _, hring⟩, _⟩ := ofMonitor_next h hm
      exact framesFollow_congr hs hring htiming (by rw [hrx])
    | false =>
      cases hf : c.ofFrames with
      | false => exact (exec_sameFrames h hu hf hm).framesFollow hs
      | true =>
        cases c with
        | inputFrameStart now => exact inputFrameStart_framesFollow hs h
        | rowEnd => exact rowEnd_framesFollow hs h
        | inputFrameEnd => exact inputFrameEnd_framesFollow hs h
        | linkLoss => exact event_framesFollow h hs (cutFrame_framesFollow hs)
        | pixelReceived r g b => exact pixelReceived_framesFollow hs h
        | pixelProcess => exact pixelProcess_framesFollow hs h
        | deadlineExpiry => exact deadlineExpiry_framesFollow hs h
        | freeRunFrameEnd => exact freeRunFrameEnd_framesFollow hs h
        | freeRunPixelSent => exact freeRunPixelSent_framesFollow hs h
        | _ => cases hf

/-- Settles O7: the invariant reads no command of the sender's queue, and every command keeps it. -/
theorem stepKeepsFramesFollow : Obligations.StepKeepsFramesFollow := by
  intro s t hs h
  unfold step at h
  split at h
  · cases h
    exact hs
  · rename_i c rest _
    exact exec_framesFollow (s := { s with pending := rest }) hs h

end Sys2Proof.Machine
end

section
/-! SUPPORT. The live context, the capture record and the sticky flags stand until what clears them. -/

namespace Sys2Proof.Machine

/-- A filled capture record and a set sticky flag of the first monitor stand in the second (R49, R51). -/
def Monitor.Stands (m m' : Monitor) : Prop :=
  (∀ r, m.capture = some r → m'.capture = some r) ∧ ∀ k, m.sticky.get k = true → m'.sticky.get k = true

namespace Monitor.Stands

variable {m m' m'' : Monitor}

theorem of_eq (hc : m'.capture = m.capture) (hs : m'.sticky = m.sticky) : m.Stands m' :=
  ⟨fun _ h => hc.trans h, fun _ h => by rwa [hs]⟩

theorem refl (m : Monitor) : m.Stands m := of_eq rfl rfl

theorem trans (h : m.Stands m') (h' : m'.Stands m'') : m.Stands m'' :=
  ⟨fun r hr => h'.1 r (h.1 r hr), fun k hk => h'.2 k (h.2 k hk)⟩

end Monitor.Stands

theorem Marks.get_raise (k : Marks) (c d : Condition) : (k.raise c).get d = (k.get d || d == c) := by
  cases c <;> cases d <;> simp [Marks.raise, Marks.get]

theorem Monitor.raise_stands (m : Monitor) (c : Condition) : m.Stands (m.raise c) :=
  ⟨fun _ h => h, fun k h => by simp [Monitor.raise, Marks.get_raise, h]⟩

theorem Monitor.foldl_raise_stands (m : Monitor) (l : List Condition) : m.Stands (l.foldl Monitor.raise m) := by
  induction l generalizing m with
  | nil => exact .refl m
  | cons c l ih => exact (m.raise_stands c).trans (ih _)

theorem Monitor.trap_stands (m : Monitor) (n : BitVec 32) (x y : Nat) (ch : Channel) (r : ChainResult) :
    m.Stands (m.trap n x y ch r) :=
  ⟨fun q h => by simp [Monitor.trap, h], fun _ h => h⟩

theorem Monitor.channel_stands (m : Monitor) (n : BitVec 32) (k : Marks) (x y : Nat) (ch : Channel) (r : ChainResult) :
    m.Stands (m.channel n k x y ch r) := by
  unfold Monitor.channel
  dsimp only
  split
  · exact (m.foldl_raise_stands _).trans (Monitor.trap_stands ..)
  · exact m.foldl_raise_stands _

theorem Monitor.sign_stands (m : Monitor) (v : Window) (x y r g b : Nat) : m.Stands (m.sign v x y r g b) :=
  .of_eq (by simp) (by simp)

variable {s t : State}

theorem sendPixel_stands (x y r g b : Nat) (s : State) : s.mon.Stands (sendPixel x y r g b s).mon :=
  s.mon.sign_stands ..

theorem processPixel_stands (p : InPixel) (s : State) : s.mon.Stands (processPixel p s).mon := by
  unfold processPixel
  split
  · exact sendPixel_stands ..
  · exact (((s.mon.channel_stands ..).trans (Monitor.channel_stands ..)).trans (Monitor.channel_stands ..)).trans
      (Monitor.sign_stands ..)

theorem drainList_stands (l : List InPixel) (s : State) : s.mon.Stands (drainList l s).mon := by
  induction l generalizing s with
  | nil => exact .refl _
  | cons p l ih =>
    refine .trans (.trans (.of_eq ?_ ?_) (processPixel_stands p _)) (ih _) <;> simp

theorem outputFrameEnd_stands (z : Option Size) (n : Nat) (s : State) : s.mon.Stands (outputFrameEnd z n s).mon :=
  .of_eq rfl rfl

theorem endWhenSent_stands {m : Monitor} (h : m.Stands s.mon) : m.Stands (endWhenSent s).mon := by
  unfold endWhenSent
  split
  · exact h.trans (outputFrameEnd_stands ..)
  · exact h

theorem drain_stands (s : State) : s.mon.Stands (drain s).mon := endWhenSent_stands (drainList_stands _ s)

theorem cutFrame_stands (s : State) : s.mon.Stands (cutFrame s).mon := by
  unfold cutFrame
  split
  · exact .refl _
  · exact endWhenSent_stands (.of_eq (by simp) (by simp))

theorem endFrame_stands (f : RxFrame) (s : State) : s.mon.Stands (endFrame f s).mon := by
  unfold endFrame
  exact endWhenSent_stands (.refl _)

theorem endFreeRun_stands (s : State) : s.mon.Stands (endFreeRun s).mon := by
  unfold endFreeRun
  split
  · exact outputFrameEnd_stands ..
  · exact .refl _

theorem outputFrameStart_stands (free : Bool) {m : Monitor} (h : m.Stands s.mon) :
    m.Stands (outputFrameStart free s).mon := by
  rw [outputFrameStart_eq]
  exact h.trans (.of_eq (by simp [startedFrame, Monitor.frameStart, State.numbered])
    (by simp [startedFrame, Monitor.frameStart, State.numbered]))

theorem event_stands {run : State → State} (h : event run s = .next t) (hr : s.mon.Stands (run s).mon) :
    s.mon.Stands t.mon :=
  event_keeps (P := fun u => s.mon.Stands u.mon) h (.refl _) hr

/-- The events of the frames clear neither the capture record nor a sticky flag. -/
theorem ofFrames_stands {c : Instr} (h : exec c s = .next t) (hc : c.ofFrames = true) : s.mon.Stands t.mon := by
  cases c with
  | inputFrameStart now =>
    simp only [exec, execInputFrameStart] at h
    have hcut : s.mon.Stands (cutLate (cutFrame s)).mon := (cutFrame_stands s).trans (.of_eq (by simp) (by simp))
    exact event_stands h (outputFrameStart_stands false ((hcut.trans (drain_stands _)).trans (endFreeRun_stands _)))
  | rowEnd =>
    simp only [exec, execRowEnd] at h
    refine event_stands h ?_
    repeat' split
    all_goals exact .of_eq (by simp) (by simp)
  | inputFrameEnd =>
    simp only [exec, execInputFrameEnd] at h
    refine event_stands h ?_
    repeat' split
    · exact .refl _
    · exact cutFrame_stands s
    · exact endFrame_stands _ s
  | linkLoss => exact event_stands h (cutFrame_stands s)
  | pixelReceived r g b =>
    obtain rfl | ⟨f, _, rfl⟩ := pixelReceived_next h
    · exact .refl _
    · obtain ⟨hmon, _⟩ := foldl_decodeByte_frame (pixelBytes r g b) (countedPixel f r g b s)
      exact .of_eq (by rw [hmon]; rfl) (by rw [hmon]; rfl)
  | pixelProcess =>
    simp only [exec, execPixelProcess] at h
    refine event_stands h ?_
    repeat' split
    · exact .refl _
    · exact endWhenSent_stands (.trans (.of_eq (by simp) (by simp)) (processPixel_stands _ _))
    · exact .of_eq (by simp) (by simp)
  | deadlineExpiry =>
    simp only [exec, execDeadlineExpiry] at h
    refine event_stands h ?_
    split
    · exact .refl _
    · exact outputFrameStart_stands true ((cutFrame_stands s).trans (drain_stands _))
  | freeRunFrameEnd =>
    simp only [exec, execFreeRunFrameEnd] at h
    refine event_stands h ?_
    split
    · exact outputFrameStart_stands true (outputFrameEnd_stands none 0 s)
    · exact .refl _
  | freeRunPixelSent =>
    simp only [exec, execFreeRunPixelSent] at h
    refine event_stands h ?_
    repeat' split
    · exact sendPixel_stands ..
    all_goals exact .refl _
  | _ => cases hc

/-- A row, a pixel or an end on the link leaves the live context. -/
theorem ofFrames_live {c : Instr} (h : exec c s = .next t) (hc : c.ofFrames = true) (hs : c.startsFrame = false) :
    t.pipe.live = s.pipe.live := by
  cases c with
  | rowEnd =>
    simp only [exec, execRowEnd] at h
    refine event_keeps (P := fun u => u.pipe.live = s.pipe.live) h rfl ?_
    repeat' split
    all_goals simp
  | inputFrameEnd =>
    simp only [exec, execInputFrameEnd] at h
    refine event_keeps (P := fun u => u.pipe.live = s.pipe.live) h rfl ?_
    repeat' split
    all_goals simp
  | linkLoss => exact event_keeps (P := fun u => u.pipe.live = s.pipe.live) h rfl (by simp)
  | pixelReceived r g b =>
    obtain rfl | ⟨f, _, rfl⟩ := pixelReceived_next h
    · rfl
    · obtain ⟨_, _, hpipe, _⟩ := foldl_decodeByte_frame (pixelBytes r g b) (countedPixel f r g b s)
      rw [hpipe]
      rfl
  | pixelProcess =>
    simp only [exec, execPixelProcess] at h
    refine event_keeps (P := fun u => u.pipe.live = s.pipe.live) h rfl ?_
    repeat' split
    all_goals simp
  | freeRunPixelSent =>
    simp only [exec, execFreeRunPixelSent] at h
    refine event_keeps (P := fun u => u.pipe.live = s.pipe.live) h rfl ?_
    repeat' split
    all_goals simp
  | inputFrameStart now => cases hs
  | deadlineExpiry => cases hs
  | freeRunFrameEnd => cases hs
  | _ => cases hc

/-- Settles O11. -/
theorem frameStateKept : Obligations.FrameStateKept := by
  refine ⟨fun c s t h hs hu => ?_, fun c s t h hu => ?_⟩
  · cases hm : c.ofMonitor with
    | true =>
      obtain ⟨⟨_, _, hlive, _⟩, _⟩ := ofMonitor_next h hm
      exact hlive
    | false =>
      cases hf : c.ofFrames with
      | true => exact ofFrames_live h hf hs
      | false =>
        obtain ⟨_, _, hlive, _⟩ := exec_sameFrames h hu hf hm
        exact hlive
  · cases hm : c.ofMonitor with
    | true =>
      obtain ⟨_, hcapture, hsticky⟩ := ofMonitor_next h hm
      refine ⟨fun r hr => ?_, fun k hk => ?_⟩
      · exact hcapture.imp (fun hc => hc.trans hr) id
      · exact hsticky.imp (fun hs => by rwa [hs]) id
    | false =>
      have hstands : s.mon.Stands t.mon := by
        cases hf : c.ofFrames with
        | true => exact ofFrames_stands h hf
        | false =>
          obtain ⟨_, _, _, hmon⟩ := exec_sameFrames h hu hf hm
          exact .of_eq (by rw [hmon]) (by rw [hmon])
      exact ⟨fun r hr => .inl (hstands.1 r hr), fun k hk => .inl (hstands.2 k hk)⟩

end Sys2Proof.Machine
end

section
/-! SUPPORT. The pipeline's and the region table's commands: fields of words, and each command's replies. -/

namespace Sys2Proof.Machine

/-! ### Fields of words -/

/-- A field's bits stand at its place. -/
theorem getLsbD_put (v hi lo i : Nat) :
    (put v hi lo).getLsbD i =
      (decide (i < 32) && (decide (lo ≤ i) && (decide (i - lo < hi + 1 - lo) && v.testBit (i - lo)))) := by
  simp [put, BitVec.getLsbD_ofNat, Nat.testBit_mul_two_pow, Nat.testBit_mod_two_pow]

theorem testBit_bits (w : Word) (hi lo j : Nat) :
    (bits w hi lo).testBit j = (decide (j < hi + 1 - lo) && w.getLsbD (j + lo)) := by
  simp [bits, BitVec.getLsbD, Nat.testBit_mod_two_pow, Nat.testBit_div_two_pow]

/-- A field put back where it was taken from is the word's bits there (R165). -/
theorem getLsbD_put_bits (w : Word) (hi lo i : Nat) :
    (put (bits w hi lo) hi lo).getLsbD i = (decide (lo ≤ i) && decide (i ≤ hi) && w.getLsbD i) := by
  rw [getLsbD_put, testBit_bits]
  by_cases h32 : i < 32
  · by_cases hlo : lo ≤ i
    · have : i - lo < hi + 1 - lo ↔ i ≤ hi := by omega
      simp [h32, hlo, this, Nat.sub_add_cancel hlo]
    · simp [hlo]
  · simp [h32, BitVec.getLsbD_of_ge w i (by omega)]

theorem getLsbD_putBit (b : Bool) (i j : Nat) : (putBit b i).getLsbD j = (b && decide (j < 32) && decide (j = i)) := by
  unfold putBit
  cases b with
  | false => simp
  | true =>
    rw [if_pos rfl, getLsbD_put]
    by_cases h : j = i
    · simp [h]
    · have hout : (decide (i ≤ j) && decide (j - i < i + 1 - i)) = false := by
        rw [Bool.and_eq_false_iff]
        simp only [decide_eq_false_iff_not]
        omega
      rw [← Bool.and_assoc (decide (i ≤ j)), hout]
      simp [h]

/-- A bit put back where it was taken from is the word's bit there alone. -/
theorem getLsbD_putBit_getLsbD (w : Word) (i j : Nat) :
    (putBit (w.getLsbD i) i).getLsbD j = (decide (j = i) && w.getLsbD j) := by
  rw [getLsbD_putBit]
  by_cases h : j = i
  · subst h
    cases hw : w.getLsbD j with
    | false => simp only [Bool.false_and, Bool.and_false]
    | true => simp only [BitVec.lt_of_getLsbD hw, decide_true, Bool.and_true]
  · simp only [h, decide_false, Bool.and_false, Bool.false_and]

/-- The mask of the word of settings holds its low 28 bits. -/
theorem getLsbD_settingsMask : ∀ i < 32, (0x0FFFFFFF : Word).getLsbD i = decide (i < 28) := by decide

/-! ### Codes -/

theorem pipeModeCode_of {n : Nat} {m : PipeMode} (h : pipeModeOf n = some m) : pipeModeCode m = n := by
  unfold pipeModeOf at h
  split at h <;> cases h <;> rfl

theorem width_of {n : Nat} {d : Depth} (h : depthOf n = some d) : d.width = n := by
  unfold depthOf at h
  split at h <;> cases h <;> rfl

theorem roundingCode_of {n : Nat} {r : Rounding} (h : roundingOf n = some r) : roundingCode r = n := by
  unfold roundingOf at h
  split at h <;> cases h <;> rfl

theorem pipeModeOf_none {n : Nat} (h : 1 < n) : pipeModeOf n = none := by
  unfold pipeModeOf
  split <;> simp_all

theorem roundingOf_none {n : Nat} (h : 2 < n) : roundingOf n = none := by
  unfold roundingOf
  split <;> simp_all

/-- The settings that a word names are that word again, its spare bits 0 (R16, Table 58). -/
theorem settingsWord_of {w : Word} {mode : PipeMode} {din dout : Depth} {rnd : Rounding}
    (hmode : pipeModeOf (bits w 27 24) = some mode) (hdin : depthOf (bits w 23 16) = some din)
    (hdout : depthOf (bits w 15 8) = some dout) (hrnd : roundingOf (bits w 7 4) = some rnd) :
    settingsWord (pipeModeCode mode) din dout rnd (marksOf w) = w &&& 0x0FFFFFFF := by
  unfold settingsWord
  rw [pipeModeCode_of hmode, width_of hdin, width_of hdout, roundingCode_of hrnd]
  refine BitVec.eq_of_getLsbD_eq fun i hi => ?_
  simp only [marksWord, marksOf, BitVec.getLsbD_or, BitVec.getLsbD_and, getLsbD_put_bits, getLsbD_putBit_getLsbD,
    getLsbD_settingsMask i hi]
  cases w.getLsbD i with
  | false => simp only [Bool.and_false, Bool.or_false, Bool.false_and]
  | true =>
    rw [Bool.eq_iff_iff]
    simp only [Bool.and_true, Bool.true_and, Bool.or_eq_true, Bool.and_eq_true, decide_eq_true_eq]
    omega

/-! ### Tested commands -/

/-- A test that fails first refuses the command with its reason. -/
theorem tested_refused {p : Packet} {g : Gate} {tests : List (Bool × Reason)} {run : State → State} {s : State}
    {r : Reason} (hg : gateRefusal g s = none) (hr : firstFailing tests = some r) :
    tested p g tests run s = refuse p r [] s := by
  simp only [tested, refusal, hg, hr]

/-- A command whose tests all pass runs. -/
theorem tested_runs {p : Packet} {g : Gate} {tests : List (Bool × Reason)} {run : State → State} {s : State}
    (hg : gateRefusal g s = none) (hr : firstFailing tests = none) : tested p g tests run s = run s := by
  simp only [tested, refusal, hg, hr]

/-! ### PIPE SET and PIPE READ -/

/-- PIPE SET once taken, where steps 1 to 3 of R148 pass and its word names five settings. -/
theorem pipeSet_named {tag : Byte} {w : Word} {l : List Word} {mode : PipeMode} {din dout : Depth} {rnd : Rounding}
    {s : State} (ht : s.canTake ⟨tag, 0x40, w :: l⟩ = true) (hg : gateRefusal .change s.taken = none)
    (hmode : pipeModeOf (bits w 27 24) = some mode) (hdin : depthOf (bits w 23 16) = some din)
    (hdout : depthOf (bits w 15 8) = some dout) (hrnd : roundingOf (bits w 7 4) = some rnd) :
    exec (.pipeSet tag (w :: l)) s = .next (
      if (w :: l).length ≠ 1 then refuse ⟨tag, 0x40, w :: l⟩ .length [] s.taken
      else done ⟨tag, 0x40, w :: l⟩ [settingsWord (pipeModeCode mode) din dout rnd (marksOf w)]
        { s.taken with pipe.pending := { s.pipe.pending with
            mode := mode, din := din, dout := dout, rounding := rnd, masks := marksOf w } }) := by
  simp only [exec, execPipeSet]
  rw [take_canTake s _ ht, dequeue_taken, show word (w :: l) 0 = w from rfl]
  simp only [hg, hmode, hdin, hdout, hrnd]
  rfl

/-- PIPE SET once taken, where steps 1 to 3 of R148 pass and its word does not name all settings. -/
theorem pipeSet_unnamed {tag : Byte} {w : Word} {l : List Word} {s : State}
    (ht : s.canTake ⟨tag, 0x40, w :: l⟩ = true) (hg : gateRefusal .change s.taken = none)
    (hbad : pipeModeOf (bits w 27 24) = none ∨ depthOf (bits w 23 16) = none ∨ depthOf (bits w 15 8) = none ∨
      roundingOf (bits w 7 4) = none) :
    exec (.pipeSet tag (w :: l)) s = .next (refuse ⟨tag, 0x40, w :: l⟩ .format [] s.taken) := by
  simp only [exec, execPipeSet]
  rw [take_canTake s _ ht, dequeue_taken, show word (w :: l) 0 = w from rfl]
  obtain h | h | h | h := hbad <;> simp [hg, h]

/-- Settles O18. -/
theorem pipeCommandsAnswer : Obligations.PipeCommandsAnswer := by
  have factory_gate : ∀ s : State, s.life.lifecycle = .factory → s.eng.hold = none →
      gateRefusal .change s.taken = none := fun s hl hh => gateRefusal_factory s.taken .change hl hh nofun nofun
  refine ⟨fun tag w mode din dout rnd s hl hh hmode hdin hdout hrnd => ⟨fun ht => ?_, fun l hne ht => ?_⟩,
    fun tag w l s ht hl hh hbad => ?_, fun tag l s ht hlen hl => ⟨?_, ?_⟩⟩
  · rw [pipeSet_named ht (factory_gate s hl hh) hmode hdin hdout hrnd, if_neg (by simp),
      settingsWord_of hmode hdin hdout hrnd]
    exact answers_post _ _ _ _ _ rfl
  · rw [pipeSet_named ht (factory_gate s hl hh) hmode hdin hdout hrnd, if_pos (by simpa using hne)]
    exact answers_post _ _ _ _ _ rfl
  · rw [pipeSet_unnamed ht (factory_gate s hl hh)
      (hbad.imp pipeModeOf_none (Or.imp_right (Or.imp_right roundingOf_none)))]
    exact answers_post _ _ _ _ _ rfl
  · simp only [pipePayload]
    cases s.pipe.live.window <;> rfl
  · simp only [exec, execPipeRead]
    rw [take_canTake s _ ht, dequeue_taken,
      tested_runs (gateRefusal_plain s.taken hl) (by simp [firstFailing, lengthIs, hlen])]
    exact answers_post _ _ _ _ _ rfl

/-! ### PROFILE WRITE, PROFILE READ and REGION SELECT -/

section

variable {s : State} {tag : Byte} {v w x : Word}

/-- The length and index tests of a command whose payload has the right length. -/
theorem firstFailing_index {p : Packet} {n : Nat} (hn : p.payload.length = n) :
    firstFailing [lengthIs p n, badIndex v] = if 16 ≤ topByte v then some .index else none := by
  by_cases h : 16 ≤ topByte v <;> simp [firstFailing, lengthIs, badIndex, hn, Config.profileEntries, h]

/-- The region table with an entry stored (R107). -/
def Region.withEntry (r : Region) (i : Nat) (e : Profile) : Region := { r with entries := r.entries.set i (some e) }

/-- PROFILE WRITE with an index below 16 stores the clamped profile, which the pending context follows (R14, R107). -/
theorem profileWrite_stores (ht : s.canTake ⟨tag, 0x60, [v, w, x]⟩ = true) (hg : gateRefusal .change s.taken = none)
    (hi : topByte v < 16) :
    let e := (profileOf v w x).clamp
    answers (exec (.profileWrite tag [v, w, x]) s)
      { s.taken with
        region := s.region.withEntry (topByte v) e
        pipe.pending := if s.region.selected = some (topByte v) then s.pipe.pending.follow e else s.pipe.pending }
      tag 0x60 .done (profilePayload (s.region.withEntry (topByte v) e) s.key.lockedClasses (topByte v)) := by
  simp only [exec, execProfileWrite]
  rw [take_canTake s _ ht, dequeue_taken,
    tested_runs hg (by rw [firstFailing_index (by rfl), if_neg]; exact Nat.not_le.mpr hi)]
  exact answers_post _ _ _ _ _ rfl

theorem profileWrite_refused (ht : s.canTake ⟨tag, 0x60, [v, w, x]⟩ = true) (hg : gateRefusal .change s.taken = none)
    (hi : 16 ≤ topByte v) :
    answers (exec (.profileWrite tag [v, w, x]) s) s.taken tag 0x60 (.refused .index) [] := by
  simp only [exec, execProfileWrite]
  rw [take_canTake s _ ht, dequeue_taken, tested_refused hg (by rw [firstFailing_index (by rfl), if_pos]; exact hi)]
  exact answers_post _ _ _ _ _ rfl

theorem profileRead_answers (ht : s.canTake ⟨tag, 0x61, [v]⟩ = true) (hg : gateRefusal .plain s.taken = none)
    (hi : topByte v < 16) :
    answers (exec (.profileRead tag [v]) s) s.taken tag 0x61 .done
      (profilePayload s.region s.key.lockedClasses (topByte v)) := by
  simp only [exec, execProfileRead]
  rw [take_canTake s _ ht, dequeue_taken,
    tested_runs hg (by rw [firstFailing_index (by rfl), if_neg]; exact Nat.not_le.mpr hi)]
  exact answers_post _ _ _ _ _ rfl

theorem profileRead_refused (ht : s.canTake ⟨tag, 0x61, [v]⟩ = true) (hg : gateRefusal .plain s.taken = none)
    (hi : 16 ≤ topByte v) : answers (exec (.profileRead tag [v]) s) s.taken tag 0x61 (.refused .index) [] := by
  simp only [exec, execProfileRead]
  rw [take_canTake s _ ht, dequeue_taken, tested_refused hg (by rw [firstFailing_index (by rfl), if_pos]; exact hi)]
  exact answers_post _ _ _ _ _ rfl

theorem regionSelect_selects {e : Profile} (ht : s.canTake ⟨tag, 0x62, [v]⟩ = true)
    (hg : gateRefusal .change s.taken = none) (hi : topByte v < 16) (he : s.region.entry (topByte v) = some e) :
    answers (exec (.regionSelect tag [v]) s)
      { s.taken with region.selected := some (topByte v), pipe.pending := s.pipe.pending.follow e } tag 0x62 .done
      [selectWord (topByte v) s.region.selected] := by
  simp only [exec, execRegionSelect]
  rw [take_canTake s _ ht, dequeue_taken,
    tested_runs hg (by rw [firstFailing_index (by rfl), if_neg]; exact Nat.not_le.mpr hi)]
  simp only [show s.taken.region.entry (topByte (word [v] 0)) = some e from he]
  exact answers_post _ _ _ _ _ rfl

/-- REGION SELECT of an invalid entry is refused with INDEX, as is an index that has none. -/
theorem regionSelect_refused (ht : s.canTake ⟨tag, 0x62, [v]⟩ = true) (hg : gateRefusal .change s.taken = none)
    (he : s.region.entry (topByte v) = none) :
    answers (exec (.regionSelect tag [v]) s) s.taken tag 0x62 (.refused .index) [] := by
  simp only [exec, execRegionSelect]
  rw [take_canTake s _ ht, dequeue_taken]
  by_cases hi : 16 ≤ topByte v
  · rw [tested_refused hg (by rw [firstFailing_index (by rfl), if_pos]; exact hi)]
    exact answers_post _ _ _ _ _ rfl
  · rw [tested_runs hg (by rw [firstFailing_index (by rfl), if_neg]; exact hi)]
    simp only [show s.taken.region.entry (topByte (word [v] 0)) = none from he]
    exact answers_post _ _ _ _ _ rfl

/-- An entry that is valid has an index of the table. -/
theorem Region.lt_of_entry {r : Region} {i : Nat} {e : Profile} (h : r.entry i = some e) : i < r.entries.length := by
  refine Nat.lt_of_not_le fun hi => ?_
  simp [Region.entry, List.getD, List.getElem?_eq_none hi] at h

end

/-- Settles O33. -/
theorem regionCommandsAnswer : Obligations.RegionCommandsAnswer := by
  intro tag v s hlen hl hh i
  have change : gateRefusal .change s.taken = none := gateRefusal_factory s.taken .change hl hh nofun nofun
  have plain : gateRefusal .plain s.taken = none := gateRefusal_factory s.taken .plain hl hh nofun nofun
  refine ⟨fun w x ht => ⟨profileWrite_refused ht change, fun hi => ?_⟩,
    fun ht => ⟨profileRead_refused ht plain, profileRead_answers ht plain⟩,
    fun ht => ⟨regionSelect_refused ht change, fun e he => ?_⟩⟩
  · exact ⟨s.region.withEntry i (profileOf v w x).clamp, Region.entry_set_same _ i _ (by rwa [hlen]),
      fun j => Region.entry_set_ne _ i _, rfl, by simp [Region.withEntry, hlen], profileWrite_stores ht change hi⟩
  · exact regionSelect_selects ht change (hlen ▸ Region.lt_of_entry he) he

end Sys2Proof.Machine
end

section
/-! SUPPORT. Frame starts and ends: input frame starts, the completion of an ACTIVATE, row ends and cuts, reports, and
free-run. -/

namespace Sys2Proof.Machine

variable {s : State}

/-! ### Cuts and drains -/

/-- Nothing is in progress that a frame start cuts. -/
theorem quiet_iff : s.quiet = true ↔ s.powered = true ∧ s.rx.frame = none ∧ s.pipe.input = [] ∧
    s.timing.owedEnd = none ∧ s.store.activatePending = false := by
  simp [State.quiet, and_assoc]

theorem cutLate_of_none (h : s.timing.owedEnd = none) : cutLate s = s := by
  simp [cutLate, h]

theorem cutLate_of_some {e : EndedFrame} (h : s.timing.owedEnd = some e) :
    cutLate s = { s with rx.measured := none } := by
  simp only [cutLate, h]

theorem cutLate_of_measured (h : s.rx.measured = none) : cutLate s = s := by
  unfold cutLate
  split
  · rfl
  · rw [← h]

/-- The drain sends the pixels that the end of a cut would have waited for: the end is filed once, behind them. -/
theorem drain_endWhenSent (s : State) : drain (endWhenSent s) = drain s := by
  by_cases hi : s.pipe.input = []
  · have hs : drain s = endWhenSent s := by rw [drain, hi]; rfl
    have howed : (endWhenSent s).timing.owedEnd = none := by rw [← hs, drain_owedEnd]
    rw [hs, drain_quiet _ howed (by simpa using hi)]
  · rw [endWhenSent_of_waiting s hi]

@[simp] theorem drain_input (s : State) : (drain s).pipe.input = [] := by
  simp [drain, drainList_input s _ rfl]

@[simp] theorem endWhenSent_window (s : State) : (endWhenSent s).mon.window = s.mon.window := by
  unfold endWhenSent
  split <;> rfl

@[simp] theorem drain_activatePending (s : State) : (drain s).store.activatePending = s.store.activatePending := by
  have h : (drain s).store.roles = s.store.roles := by simp [drain]
  exact congrArg (fun r => r.2.2.2) h

@[simp] theorem drain_settings (s : State) :
    (drain s).pipe.live = s.pipe.live ∧ (drain s).pipe.pending = s.pipe.pending ∧
    (drain s).mon.window = s.mon.window ∧ (drain s).store.roles = s.store.roles := by simp [drain]

/-- A frame that ends with no more to receive: what a cut makes of a state before the pixels that wait are sent. -/
def State.cutTo (s : State) (e : Engine) (measured : Option Size) (x : EndedFrame) : State :=
  { s with eng := e, rx := { s.rx with frame := none, measured := measured }, timing.owedEnd := some x }

/-- The report of a cut frame: its number and mode are those of the frame, its size and rows those of the cut. -/
theorem drain_cutTo_ring (s : State) (e : Engine) (m : Option Size) (x : EndedFrame) :
    ∃ r, (drain (s.cutTo e m x)).mon.ring = pushReport s.mon.ring r ∧ r.frame = s.timing.frameNumber ∧
      r.mode = s.pipe.live.mode ∧ r.measured = some x.measured ∧ r.serviceRows = x.serviceRows := by
  rw [drain_of_some (e := x) _ rfl]
  refine ⟨frameReport (some x.measured) x.serviceRows (drainList s.pipe.input (s.cutTo e m x)), ?_, ?_, ?_, rfl, rfl⟩
  · simp [outputFrameEnd, State.cutTo]
  · simp [frameReport, State.cutTo]
  · simp [frameReport, State.cutTo]

theorem drain_cutTo_timing (s : State) (e : Engine) (m : Option Size) (x : EndedFrame) :
    (drain (s.cutTo e m x)).timing = { s.timing with frame := .none, owedEnd := none } := by
  rw [drain_of_some (e := x) _ rfl]
  simp [State.cutTo]

/-- The frame that a frame start or the deadline cuts: one that has ended on the link and whose output has not, or the
one being received, with the engine that its line cut short leaves. -/
def State.Cuts (s : State) (size : Size) (rows : Nat) (e : Engine) : Prop :=
  (s.rx.frame = none ∧ s.timing.owedEnd = some ⟨size, rows⟩ ∧ e = s.eng) ∨
    ∃ f, s.rx.frame = some f ∧ f.row < 65535 ∧ rows = s.rx.serviceRows ∧ size = ⟨f.firstRow.getD f.pixels, f.row + 1⟩ ∧
      e = s.engineCut f

theorem nextCount_of_lt {n : Nat} (h : n < 65535) : nextCount n = n + 1 := if_pos h

/-- The deadline's cut, up to the measured size, which it then drops (R7). -/
theorem State.Cuts.drain_cutFrame {size : Size} {rows : Nat} {e : Engine} (h : s.Cuts size rows e) :
    ∃ m, drain (cutFrame s) = drain (s.cutTo e m ⟨size, rows⟩) := by
  obtain ⟨hrx, howed, rfl⟩ | ⟨f, hf, hrow, rfl, rfl, rfl⟩ := h
  · refine ⟨s.rx.measured, ?_⟩
    rw [cutFrame_of_none s hrx, State.cutTo, ← hrx, ← howed]
  · refine ⟨none, ?_⟩
    rw [cutFrame_of_some s hf, drain_endWhenSent, cutSize, nextCount_of_lt hrow]
    rfl

/-- A frame start's cut: the measured size becomes absent in both cases (R6, R24; log 7). -/
theorem State.Cuts.drain_cutLate {size : Size} {rows : Nat} {e : Engine} (h : s.Cuts size rows e) :
    drain (cutLate (cutFrame s)) = drain (s.cutTo e none ⟨size, rows⟩) := by
  obtain ⟨hrx, howed, rfl⟩ | ⟨f, hf, hrow, rfl, rfl, rfl⟩ := h
  · rw [cutFrame_of_none s hrx, cutLate_of_some howed, State.cutTo, ← hrx, ← howed]
  · rw [cutFrame_of_some s hf, cutLate_of_measured (by simp), drain_endWhenSent, cutSize, nextCount_of_lt hrow]
    rfl

/-! ### INPUT_FRAME_START -/

/-- The link receiver at the start of a frame, its service region open (R156, R158). -/
def State.receiving (s : State) : State := { s with rx := { s.rx with frame := some newRxFrame, serviceRows := 0 } }

/-- An input frame start cuts what is in progress, ends a free-run frame, takes the period, and begins the frame at the
panel and on the link (R4, R156). -/
theorem inputFrameStart_eq (now : Nat) (hp : s.powered = true) :
    exec (.inputFrameStart now) s = .next
      (outputFrameStart false (takePeriod now (endFreeRun (drain (cutLate (cutFrame s)))))).receiving := by
  simp only [exec, execInputFrameStart]
  exact event_powered s _ hp

/-- With nothing in progress, a frame start cuts nothing. -/
theorem drain_cut_none (hrx : s.rx.frame = none) (hinput : s.pipe.input = []) (howed : s.timing.owedEnd = none) :
    drain (cutLate (cutFrame s)) = s := by
  rw [cutFrame_of_none s hrx, cutLate_of_none howed, drain_quiet s howed hinput]

theorem endFreeRun_of_running (h : s.timing.free = false) : endFreeRun s = s := by
  simp [endFreeRun, h]

theorem endFreeRun_of_free (h : s.timing.free = true) :
    endFreeRun s = { outputFrameEnd none 0 s with timing.free := false } := by
  simp [endFreeRun, h]

/-- Where no previous start stands, no period is measured (R4). -/
theorem takePeriod_of_none (now : Nat) (h : s.rx.prevStart = none) :
    takePeriod now s =
      { s with timing.deadline := some (now + 2 * s.timing.lastPeriod), rx.prevStart := some now } := by
  simp [takePeriod, h]

/-- The buffer of a frame that is not FULL is empty; in a FULL frame the fetch of row 0 has begun. -/
theorem startedBuffer_spec (c : LiveContext) :
    (c.mode ≠ .full → (startedBuffer c).slots = [none, none, none] ∧ (startedBuffer c).fetchList = [] ∧
      (startedBuffer c).fetch = none) ∧
    (c.mode = .full → (startedBuffer c).slots = [some ⟨c.bank, 0, 0, []⟩, none, none] ∧
      (startedBuffer c).fetchList = [1, 2] ∧ (startedBuffer c).fetch = some 0) := by
  constructor <;> intro h <;> simp [startedBuffer, h, RowBuffer.start]

/-- The mode decision, entry by entry (R12, Table 7). -/
theorem decideMode_spec (free starting : Bool) (mode : PipeMode) (g : Option Geometry) (z : Option Size) :
    let m := decideMode free starting mode g z
    (m = .freeRun ↔ free = true) ∧
    (m = .bypass ↔ free = false ∧ (starting = true ∨ mode = .bypass ∨ g = none)) ∧
    (m = .full ↔ free = false ∧ starting = false ∧ mode = .full ∧
      ∃ x y, g = some x ∧ z = some y ∧ y.width = x.w ∧ y.height = x.h) := by
  unfold decideMode
  dsimp only
  split
  · simp_all
  · split
    · simp_all
    · split
      · simp_all
      · simp_all
      · simp_all
      · split <;> simp_all
        intro h
        simp_all

/-- INPUT_FRAME_START with nothing in progress but a free-run frame. -/
theorem inputFrameStart_quiet (now : Nat) (hq : s.quiet = true) :
    exec (.inputFrameStart now) s =
      .next (startedFrame false (takePeriod now (endFreeRun s)).numbered).receiving := by
  obtain ⟨hp, hrx, hinput, howed, hactivate⟩ := quiet_iff.mp hq
  rw [inputFrameStart_eq now hp, drain_cut_none hrx hinput howed,
    outputFrameStart_of_none _ _ (by simpa using hactivate)]

/-- INPUT_FRAME_START over a frame that it cuts, in RUNNING and with no ACTIVATE pending: the report is filed, and the
frame begins with the measured size absent (R6, R24). -/
theorem inputFrameStart_cuts {size : Size} {rows : Nat} {e : Engine} (now : Nat) (hp : s.powered = true)
    (hfree : s.timing.free = false) (ha : s.store.activatePending = false) (hc : s.Cuts size rows e) :
    ∃ t r, exec (.inputFrameStart now) s = .next t ∧ t.rx.measured = none ∧ t.timing.raster = s.timing.raster ∧
      t.timing.frameNumber = s.timing.frameNumber + 1 ∧ t.timing.owedEnd = none ∧ t.rx.frame = some newRxFrame ∧
      t.rx.prevStart = some now ∧ t.pipe.input = [] ∧
      t.mon.ring = pushReport s.mon.ring r ∧ r.frame = s.timing.frameNumber ∧ r.mode = s.pipe.live.mode ∧
      r.measured = some size ∧ r.serviceRows = rows ∧
      t.pipe.live = liveFrom s.pipe.pending
        (decideMode false (s.life.lifecycle == .starting) s.pipe.pending.mode s.pipe.pending.geometry none)
        (applyWindow s.mon.window none) := by
  obtain ⟨r, hring, hframe, hmode, hmeasured, hrows⟩ := drain_cutTo_ring s e none ⟨size, rows⟩
  have htiming := drain_cutTo_timing s e none ⟨size, rows⟩
  have hexec := inputFrameStart_eq now hp
  rw [hc.drain_cutLate] at hexec
  generalize hd : drain (s.cutTo e none ⟨size, rows⟩) = d at hring htiming hexec
  have hrx : d.rx = { s.rx with frame := none, measured := none } := by simp [← hd, State.cutTo]
  have hlife : d.life = s.life := by simp [← hd, State.cutTo]
  have hinput : d.pipe.input = [] := by simp [← hd]
  have hpending : d.pipe.pending = s.pipe.pending := by simp [← hd, State.cutTo]
  have hwindow : d.mon.window = s.mon.window := by simp [← hd, State.cutTo]
  have hactivate : d.store.activatePending = false := by simpa [← hd, State.cutTo] using ha
  rw [endFreeRun_of_running (by rw [htiming]; exact hfree),
    outputFrameStart_of_none _ _ (by simpa using hactivate)] at hexec
  refine ⟨_, r, hexec, ?_, ?_, ?_, ?_, rfl, rfl, hinput, hring, hframe, hmode, hmeasured, hrows, ?_⟩
  · simp [State.receiving, startedFrame, State.numbered, takePeriod, hrx]
  · simp [State.receiving, startedFrame, State.numbered, takePeriod, htiming]
  · simp [State.receiving, startedFrame, State.numbered, takePeriod, htiming]
  · simp [State.receiving, startedFrame, State.numbered, takePeriod, htiming]
  · simp [State.receiving, startedFrame, startedContext, State.numbered, takePeriod, hrx, hlife, hpending, hwindow]

/-- Settles O45. -/
theorem inputFrameStarts : Obligations.InputFrameStarts := by
  refine ⟨fun now s hq hfree => ?_, fun now s hq hfree hprev => ?_, fun now rows size s hp hfree ha hc => ?_,
    decideMode_spec⟩
  · refine ⟨_, inputFrameStart_quiet now hq, ?_, ?_⟩
    · rw [endFreeRun_of_running hfree]
      rfl
    · rw [endFreeRun_of_running hfree]
      exact startedBuffer_spec (startedContext false (takePeriod now s).numbered)
  · refine ⟨_, inputFrameStart_quiet now hq, ?_⟩
    obtain ⟨_, _, _, howed, _⟩ := quiet_iff.mp hq
    rw [takePeriod_of_none now (by simpa using hprev), endFreeRun_of_free hfree]
    exact ⟨rfl, by simp [startedFrame, State.numbered, State.receiving, howed], rfl, rfl, rfl, rfl, rfl⟩
  · obtain ⟨hrx, howed⟩ | ⟨f, hf, hrow, hrows, hsize⟩ := hc
    · exact inputFrameStart_cuts now hp hfree ha (.inl ⟨hrx, howed, rfl⟩)
    · exact inputFrameStart_cuts now hp hfree ha (.inr ⟨f, hf, hrow, hrows, hsize, rfl⟩)

/-! ### DEADLINE_EXPIRY and FREE_RUN_FRAME_END -/

/-- Output timing in FREE_RUN, the measured size, the previous frame start and the deadline absent (R7). -/
def State.freeRunning (s : State) : State :=
  { s with
    rx := { s.rx with measured := none, prevStart := none }
    timing := { s.timing with free := true, deadline := none } }

theorem deadlineExpiry_eq (hp : s.powered = true) (hfree : s.timing.free = false)
    (hd : s.timing.deadline.isSome = true) :
    exec .deadlineExpiry s = .next (outputFrameStart true (drain (cutFrame s)).freeRunning) := by
  simp only [exec, execDeadlineExpiry]
  rw [event_powered s _ hp, if_neg (by simp [hfree, Option.ne_none_iff_isSome, hd])]
  rfl

theorem freeRunFrameEnd_eq (hp : s.powered = true) (hfree : s.timing.free = true) :
    exec .freeRunFrameEnd s = .next (outputFrameStart true (outputFrameEnd none 0 s)) := by
  simp only [exec, execFreeRunFrameEnd]
  rw [event_powered s _ hp, if_pos hfree]

/-! ### The completion of an ACTIVATE -/

/-- The roles exchanged, the pending context on the new ACTIVE bank, the reply taken from its holder (R15, R70). -/
def State.exchanged (s : State) : State :=
  { s with
    store := { s.store with active := s.store.load, activatePending := false }
    pipe.pending := { s.pipe.pending with bank := s.store.load, geometry := s.store.geometry s.store.load }
    eng.holdActivate := none }

theorem completeActivate_of_some {tag : Byte} (ha : s.store.activatePending = true)
    (hh : s.eng.holdActivate = some tag) :
    completeActivate s =
      postDeferred .store tag 0x28 .done [put (bankCode s.store.load) 1 0, s.timing.frameNumber] s.exchanged := by
  simp only [completeActivate, ha, hh, if_true]
  rfl

theorem put_bankCode (bank : Bank) : put (bankCode bank) 1 0 = if bank = .a then 0 else 1 := by
  cases bank <;> decide

/-- The same store, settings, engine, return path and tables, frame number and summary: all that the completion of an
ACTIVATE reads. -/
def SamePosting (s w : State) : Prop :=
  w.store = s.store ∧ w.pipe = s.pipe ∧ w.eng = s.eng ∧ w.ret = s.ret ∧ w.region = s.region ∧ w.key = s.key ∧
    w.life = s.life ∧ w.timing.frameNumber = s.timing.frameNumber ∧ w.summary = s.summary

/-- A frame start completes a pending ACTIVATE (R70). -/
theorem outputFrameStart_completes {w : State} {tag : Byte} (free : Bool) (h : SamePosting s w)
    (ha : s.store.activatePending = true) (hh : s.eng.holdActivate = some tag) :
    let t := outputFrameStart free w
    let words : List Word := [if s.store.load = .a then 0 else 1, s.timing.frameNumber + 1]
    t.store = { s.store with active := s.store.load, activatePending := false } ∧
    t.pipe.pending = { s.pipe.pending with bank := s.store.load, geometry := s.store.geometry s.store.load } ∧
    t.pipe.live.bank = s.store.load ∧ t.pipe.live.geometry = s.store.geometry s.store.load ∧
    t.timing.frameNumber = s.timing.frameNumber + 1 ∧
    t.eng = { s.eng with holdActivate := none } ∧
    (blockFree .store s = true → t.ret.later = s.ret.later ∧
      t.outbox = s.outbox ++ [⟨tag, 0x28, .done, { s.summary with activatePending := false }, words⟩]) ∧
    (blockFree .store s = false →
      t.ret = { s.ret with later := s.ret.later ++ [⟨.store, s.eng.restarting, tag, 0x28, .done, words⟩] }) ∧
    t.region = s.region ∧ t.key = s.key ∧ t.life = s.life := by
  obtain ⟨hstore, hpipe, heng, hret, hregion, hkey, hlife, hnumber, hsummary⟩ := h
  have hstart : outputFrameStart free w = startedFrame free (postDeferred .store tag 0x28 .done
      [if s.store.load = .a then 0 else 1, s.timing.frameNumber + 1] w.numbered.exchanged) := by
    rw [outputFrameStart_eq, completeActivate_of_some (tag := tag) (by simpa [State.numbered, hstore] using ha)
      (by simpa [State.numbered, heng] using hh), put_bankCode]
    simp [State.numbered, hstore, hnumber]
  obtain ⟨u, hu, hframe, hposted, hkept⟩ := posts_postDeferred w.numbered.exchanged .store tag 0x28 .done
    [if s.store.load = .a then 0 else 1, s.timing.frameNumber + 1]
  rw [Host.Outcome.next.inj hu] at hstart
  obtain ⟨r, rfl⟩ : ∃ r, u = { w.numbered.exchanged with ret := r } := ⟨u.ret, hframe⟩
  have hfree : blockFree .store w.numbered.exchanged = blockFree .store s := by
    simp [blockFree, State.exchanged, State.numbered, hret]
  have hsum : w.numbered.exchanged.summary = { s.summary with activatePending := false } := by
    rw [← hsummary]
    rfl
  have houtbox : w.numbered.exchanged.outbox = s.outbox := by
    simp [State.outbox, State.exchanged, State.numbered, hret]
  rw [hfree] at hposted hkept
  dsimp only
  rw [hstart]
  refine ⟨?_, ?_, ?_, ?_, ?_, ?_, fun h => ?_, fun h => ?_, hregion, hkey, hlife⟩
  · simp [startedFrame, State.exchanged, State.numbered, hstore]
  · simp [startedFrame, State.exchanged, State.numbered, hstore, hpipe]
  · simp [startedFrame, startedContext, liveFrom, State.exchanged, State.numbered, hstore]
  · simp [startedFrame, startedContext, liveFrom, State.exchanged, State.numbered, hstore]
  · simp [startedFrame, State.exchanged, State.numbered, hnumber]
  · simp [startedFrame, State.exchanged, State.numbered, heng]
  · obtain ⟨hout, hlater⟩ := hposted h
    rw [houtbox, hsum] at hout
    refine ⟨hlater.trans ?_, hout⟩
    simp [State.exchanged, State.numbered, hret]
  · refine (hkept h).trans ?_
    simp [State.exchanged, State.numbered, hret, heng]

/-- Settles O46: in each of the four frame starts nothing that the completion reads has changed before it. -/
theorem frameStartCompletesActivate : Obligations.FrameStartCompletesActivate := by
  intro c now tag s hq ha hh hc
  have hquiet : s.powered = true ∧ s.rx.frame = none ∧ s.pipe.input = [] ∧ s.timing.owedEnd = none := by
    obtain ⟨hp, hrx, hinput, howed, _⟩ := quiet_iff.mp hq
    exact ⟨hp, hrx, hinput, howed⟩
  obtain ⟨hp, hrx, hinput, howed⟩ := hquiet
  have hcut : drain (cutFrame s) = s := by
    rw [cutFrame_of_none s hrx, drain_quiet s howed hinput]
  obtain ⟨hfree, rfl | ⟨rfl, hd⟩⟩ | ⟨hfree, rfl | rfl⟩ := hc
  · refine ⟨_, inputFrameStart_eq now hp, ?_⟩
    rw [drain_cut_none hrx hinput howed, endFreeRun_of_running hfree]
    exact outputFrameStart_completes false ⟨rfl, rfl, rfl, rfl, rfl, rfl, rfl, rfl, rfl⟩ ha hh
  · refine ⟨_, deadlineExpiry_eq hp hfree hd, ?_⟩
    rw [hcut]
    exact outputFrameStart_completes true ⟨rfl, rfl, rfl, rfl, rfl, rfl, rfl, rfl, rfl⟩ ha hh
  · refine ⟨_, inputFrameStart_eq now hp, ?_⟩
    rw [drain_cut_none hrx hinput howed, endFreeRun_of_free hfree]
    exact outputFrameStart_completes false ⟨rfl, rfl, rfl, rfl, rfl, rfl, rfl, rfl, rfl⟩ ha hh
  · refine ⟨_, freeRunFrameEnd_eq hp hfree, ?_⟩
    exact outputFrameStart_completes true ⟨rfl, rfl, rfl, rfl, rfl, rfl, rfl, rfl, rfl⟩ ha hh

end Sys2Proof.Machine
end

section
/-! SUPPORT. The ends of rows and frames, the reports behind them, and free-run. -/

namespace Sys2Proof.Machine

variable {s : State}

/-! ### Free-run -/

/-- The free-run raster reads the raster kept and the ACTIVE bank's geometry (R7). -/
theorem freeRunRaster_congr {t : State} (hr : t.timing.raster = s.timing.raster)
    (hs : t.store.roles = s.store.roles) : freeRunRaster t = freeRunRaster s := by
  simp only [Store.roles, Prod.mk.injEq] at hs
  obtain ⟨ha, hb, hactive, _⟩ := hs
  have hg : t.store.geometry t.store.active = s.store.geometry s.store.active := by
    rw [hactive]
    cases s.store.active <;> assumption
  simp only [freeRunRaster, hr, hg]

/-- A free-run frame begun, as the rules name its parts (R7, R9, R48). -/
theorem startedFrame_free (s : State) :
    startedFrame true s = { s with
      timing.frame := .freeRun (freeRunRaster s) 0
      pipe.live := liveFrom s.pipe.pending .freeRun (applyWindow s.mon.window (some (freeRunRaster s)))
      mon := s.mon.frameStart
      buf := .start } := rfl

/-- The deadline over a frame that it cuts, with no ACTIVATE pending (R6, R7, R24). -/
theorem deadlineExpiry_cuts {size : Size} {rows : Nat} {e : Engine} (hp : s.powered = true)
    (hfree : s.timing.free = false) (hd : s.timing.deadline.isSome = true) (ha : s.store.activatePending = false)
    (hc : s.Cuts size rows e) :
    ∃ t r, exec .deadlineExpiry s = .next t ∧ t.rx.frame = none ∧ t.rx.measured = none ∧ t.rx.prevStart = none ∧
      t.timing = { s.timing with
        free := true, deadline := none, frameNumber := s.timing.frameNumber + 1,
        frame := .freeRun (freeRunRaster s) 0, owedEnd := none } ∧
      t.pipe.input = [] ∧
      t.pipe.live = liveFrom s.pipe.pending .freeRun (applyWindow s.mon.window (some (freeRunRaster s))) ∧
      t.buf = .start ∧ t.eng = e ∧ t.mon.ring = pushReport s.mon.ring r ∧ r.frame = s.timing.frameNumber ∧
      r.mode = s.pipe.live.mode ∧ r.measured = some size ∧ r.serviceRows = rows := by
  obtain ⟨m, hm⟩ := hc.drain_cutFrame
  obtain ⟨r, hring, hframe, hmode, hmeasured, hrows⟩ := drain_cutTo_ring s e m ⟨size, rows⟩
  have htiming := drain_cutTo_timing s e m ⟨size, rows⟩
  have hexec := deadlineExpiry_eq hp hfree hd
  rw [hm] at hexec
  generalize hd : drain (s.cutTo e m ⟨size, rows⟩) = d at hring htiming hexec
  have hrx : d.rx.frame = none := by simp [← hd, State.cutTo]
  have hinput : d.pipe.input = [] := by simp [← hd]
  have hpending : d.pipe.pending = s.pipe.pending := by simp [← hd, State.cutTo]
  have hwindow : d.mon.window = s.mon.window := by simp [← hd, State.cutTo]
  have heng : d.eng = e := by simp [← hd, State.cutTo]
  have hroles : d.store.roles = s.store.roles := by simp [← hd, State.cutTo]
  have hactivate : d.store.activatePending = false := by simpa [← hd, State.cutTo] using ha
  have hraster : freeRunRaster d.freeRunning.numbered = freeRunRaster s :=
    freeRunRaster_congr (by simp [State.numbered, State.freeRunning, htiming]) hroles
  rw [outputFrameStart_of_none d.freeRunning true hactivate, startedFrame_free, hraster] at hexec
  refine ⟨_, r, hexec, hrx, rfl, rfl, ?_, hinput, ?_, rfl, heng, hring, hframe, hmode, hmeasured, hrows⟩
  · simp [State.numbered, State.freeRunning, htiming]
  · simp [State.numbered, State.freeRunning, hpending, hwindow]

/-- Signing a pixel changes the accumulator alone (R57). -/
theorem Monitor.sign_eq (m : Monitor) (v : Window) (x y r g b : Nat) :
    m.sign v x y r g b = { m with acc := (m.sign v x y r g b).acc } := by
  unfold Monitor.sign
  repeat' split
  all_goals rfl

/-- A black component's output field (R1, R9). -/
theorem outputField_black (d : Depth) : outputField d 0 = 0 := by
  cases d <;> rfl

/-- A black pixel's six bytes (R9, R58). -/
theorem signedBytes_black : signedBytes 0 0 0 = [0, 0, 0, 0, 0, 0] := by decide

/-- Settles O49. -/
theorem freeRunSteps : Obligations.FreeRunSteps := by
  refine ⟨fun rows size e s hp hfree hd ha hc => deadlineExpiry_cuts hp hfree hd ha hc, fun s hq => ?_⟩
  obtain ⟨hp, hrx, hinput, howed, ha⟩ := quiet_iff.mp hq
  refine ⟨fun hfree hd => ?_, fun hfree => ?_, fun z n hf hn => ?_⟩
  · rw [deadlineExpiry_eq hp hfree hd, cutFrame_of_none s hrx, drain_quiet s howed hinput,
      outputFrameStart_of_none s.freeRunning true ha, startedFrame_free]
    rfl
  · rw [freeRunFrameEnd_eq hp hfree, outputFrameStart_of_none (outputFrameEnd none 0 s) true ha, startedFrame_free]
    simp only [outputFrameEnd, State.numbered, Monitor.frameStart, howed]
    rfl
  · simp only [exec, execFreeRunPixelSent]
    rw [event_powered s _ hp]
    simp only [hf, if_pos hn]
    refine ⟨(s.mon.sign s.pipe.live.window (n % z.width) (n / z.width) 0 0 0).acc, ?_,
      fun a hacc => ⟨fun hout => ?_, fun hin => ?_⟩⟩
    · rw [← Monitor.sign_eq]
      simp only [sendPixel, outputField_black]
    · simp [Monitor.sign, hacc, hout]
    · simp only [Monitor.sign, hacc, hin, if_true, signedBytes_black]
      rfl

/-! ### Ends on the link -/

/-- A frame that has ended on the link: where no pixel waits its output ends, with the report, and else the end is owed
(R5, R22). -/
theorem endWhenSent_ended {u : State} (z : Size) (n : Nat) (hpipe : u.pipe = s.pipe) (hmon : u.mon = s.mon)
    (hnumber : u.timing.frameNumber = s.timing.frameNumber) :
    endWhenSent { u with timing.owedEnd := some ⟨z, n⟩ } =
      if s.pipe.input = [] then { u with
        timing := { u.timing with frame := .none, owedEnd := none }
        mon := { s.mon with
          counts := ⟨0, 0, 0, 0⟩
          trapped := 0
          ring := pushReport s.mon.ring (frameReport (some z) n s) } }
      else { u with timing.owedEnd := some ⟨z, n⟩ } := by
  by_cases hi : s.pipe.input = []
  · rw [if_pos hi, endWhenSent_of_sent _ rfl (by rw [hpipe]; exact hi)]
    simp [outputFrameEnd, frameReport, hpipe, hmon, hnumber]
  · rw [if_neg hi, endWhenSent_of_waiting _ (by rw [hpipe]; exact hi)]

theorem inputFrameEnd_eq {f : RxFrame} (hp : s.powered = true) (hf : s.rx.frame = some f) :
    exec .inputFrameEnd s = .next (if f.rowOpen then cutFrame s else endFrame f s) := by
  simp only [exec, execInputFrameEnd]
  rw [event_powered s _ hp]
  simp only [hf]

theorem rowEnd_eq {f : RxFrame} (hp : s.powered = true) (hf : s.rx.frame = some f) (hopen : f.rowOpen = true) :
    exec .rowEnd s = .next { s with
      eng := s.engineCut f
      rx.frame := some { f with
        rowOpen := false
        firstRow := if f.row = 0 then some f.pixels else f.firstRow
        regionOpen := regionAfter f s.rx.serviceRows
        dec := idleDecoder } } := by
  simp only [exec, execRowEnd]
  rw [event_powered s _ hp]
  simp only [hf, hopen, if_true, cutLine_eq]

/-- With no frame in progress the ends on the link change nothing. -/
theorem ends_without_frame (hp : s.powered = true) (hf : s.rx.frame = none) :
    exec .linkLoss s = .next s ∧ exec .inputFrameEnd s = .next s ∧ exec .rowEnd s = .next s := by
  simp [exec, execLinkLoss, execInputFrameEnd, execRowEnd, event, hp, hf, cutFrame_of_none]

/-- Settles O47. -/
theorem rowsAndFramesEnd : Obligations.RowsAndFramesEnd := by
  refine ⟨fun s hp => ⟨ends_without_frame hp, fun f hf hrow => ?_⟩, fun f s hp hf hopen => ?_⟩
  · have hcut := cutFrame_of_some s hf
    rw [cutSize, nextCount_of_lt hrow] at hcut
    have hended := hcut.trans (endWhenSent_ended (s := s)
      (u := { s with eng := s.engineCut f, rx := { s.rx with frame := none, measured := none } })
      ⟨f.firstRow.getD f.pixels, f.row + 1⟩ s.rx.serviceRows rfl rfl rfl)
    refine ⟨fun hclosed width hwidth => ?_, (event_powered s _ hp).trans (congrArg _ hended), fun hopen => ?_⟩
    · rw [inputFrameEnd_eq hp hf, if_neg (by simp [hclosed]), endFrame, fullSize, nextCount_of_lt hrow, hwidth]
      exact congrArg _ (endWhenSent_ended (s := s)
        (u := { s with
          rx := { s.rx with frame := none, measured := some ⟨width, f.row + 1⟩ }
          timing.raster := some ⟨width, f.row + 1⟩ }) ⟨width, f.row + 1⟩ s.rx.serviceRows rfl rfl rfl)
    · rw [inputFrameEnd_eq hp hf, if_pos hopen]
      exact congrArg _ hended
  · refine ⟨s.engineCut f, ?_, fun hh hp => ?_, fun hline hhold => ?_, fun hheld => ?_⟩
    · rw [rowEnd_eq hp hf hopen, regionAfter, Bool.and_assoc]
      rfl
    · simp [State.engineCut, hh, hp]
    · simp [State.engineCut, hline, hhold]
    · have : s.eng.hold ≠ none := Option.isSome_iff_ne_none.mp hheld
      simp [State.engineCut, this]

/-! ### Reports -/

/-- PIXEL_PROCESS takes the oldest pixel that waits: its band begins, and it is sent if it can be (R22). -/
theorem pixelProcess_eq {p : InPixel} {rest : List InPixel} (hp : s.powered = true) (hi : s.pipe.input = p :: rest) :
    exec .pixelProcess s = .next (
      let t := beginBand p.x p.y s
      if pixelReady p t then endWhenSent (processPixel p { t with pipe.input := rest }) else t) := by
  simp only [exec, execPixelProcess]
  rw [event_powered s _ hp]
  simp only [hi]

/-- No band begins in a frame that is not FULL. -/
theorem beginBand_of_ne (x y : Nat) (h : s.pipe.live.mode ≠ .full) : beginBand x y s = s := by
  unfold beginBand
  split <;> simp_all

/-- In a frame that is not FULL a pixel waits only until its row is decided. -/
theorem pixelReady_of_ne (p : InPixel) (h : s.pipe.live.mode ≠ .full) : pixelReady p s = rowDecided s p.y := by
  unfold pixelReady
  split <;> simp_all

/-- Outside a FULL frame a pixel whose row is decided is processed, and the frame's end follows if it was the last. -/
theorem pixelProcess_of_ne {p : InPixel} {rest : List InPixel} (hp : s.powered = true) (hi : s.pipe.input = p :: rest)
    (hmode : s.pipe.live.mode ≠ .full) (hdecided : rowDecided s p.y = true) :
    exec .pixelProcess s = .next (endWhenSent (processPixel p { s with pipe.input := rest })) := by
  rw [pixelProcess_eq hp hi, beginBand_of_ne _ _ hmode, if_pos (by rw [pixelReady_of_ne p hmode, hdecided])]

/-- The processing of a pixel does not read whether the frame's end is owed. -/
theorem processPixel_owedEnd (p : InPixel) (x : Option EndedFrame) :
    processPixel p { s with timing.owedEnd := x } = { processPixel p s with timing.owedEnd := x } := by
  unfold processPixel
  split <;> rename_i h
  · rw [if_pos (show isServiceRow s p.y = true from h)]
    rfl
  · rw [if_neg (show ¬ isServiceRow s p.y = true from h)]
    rfl

/-- The bank is reported in a FULL frame alone, and the accumulator's values are the signature and pixels (Table 22). -/
theorem frameReport_spec (z : Option Size) (rows : Nat) (s : State) :
    let r := frameReport z rows s
    r.frame = s.timing.frameNumber ∧ r.mode = s.pipe.live.mode ∧ r.window = s.pipe.live.window ∧
      r.bank = (if s.pipe.live.mode = .full then some s.pipe.live.bank else none) ∧ r.measured = z ∧
      r.serviceRows = rows ∧ r.counts = s.mon.counts ∧ r.trapped = s.mon.trapped ∧
      ∀ a, s.mon.acc = some a → r.signature = a.crc ∧ r.pixels = a.pixels :=
  ⟨rfl, rfl, rfl, rfl, rfl, rfl, rfl, rfl, fun a ha => by simp [frameReport, ha]⟩

/-- Settles O48. -/
theorem frameReportsFiled : Obligations.FrameReportsFiled := by
  refine ⟨fun z rows s => ⟨frameReport_spec z rows s, fun hlen => ?_, fun x l hring hlen => ?_⟩,
    fun p e s hp hi howed hmode hdecided => ?_⟩
  · rw [pushReport, if_neg (by simpa [Config.ringSize] using hlen)]
  · rw [pushReport, if_pos (by simp [Config.ringSize, hlen]), hring]
    rfl
  · have hunowed := pixelProcess_of_ne (s := { s with timing.owedEnd := none }) hp hi hmode hdecided
    have howing := pixelProcess_of_ne hp hi hmode hdecided
    have hsent := processPixel_owedEnd (s := { s with pipe.input := [] }) p none
    rw [endWhenSent_of_none _ (by simp)] at hunowed
    rw [endWhenSent_of_sent _ (e := e) (by simpa using howed) (by simp)] at howing
    refine ⟨_, _, hunowed.trans (congrArg _ hsent), howing, ?_⟩
    simp [outputFrameEnd, frameReport]

end Sys2Proof.Machine
end

section
/-! SUPPORT. Pixels received: how the decoder takes the bytes of a row that is not a service line. -/

namespace Sys2Proof.Machine

variable {s : State} {f : RxFrame}

/-! ### The decoder, byte by byte -/

/-- The frame being received set. -/
def State.withRx (s : State) (f : RxFrame) : State := { s with rx.frame := some f }

theorem decodeByte_idle (x : Byte) (hf : s.rx.frame = some f) (hd : f.dec.state = .idle) : decodeByte s x = s := by
  simp [decodeByte, hf, hd]

theorem foldl_decodeByte_idle (l : List Byte) (hf : s.rx.frame = some f) (hd : f.dec.state = .idle) :
    l.foldl decodeByte s = s := by
  induction l with
  | nil => rfl
  | cons x l ih => rw [List.foldl_cons, decodeByte_idle x hf hd, ih]

/-- The decoder matching the marker, with the bytes gathered so far (R158). -/
def matching (l : List Byte) : Decoder := { idleDecoder with state := .matching, bytes := l }

/-- The frame with another state of the decoder. -/
def RxFrame.withDec (f : RxFrame) (d : Decoder) : RxFrame := { f with dec := d }

theorem decodeByte_matching {l : List Byte} (x : Byte) (hl : l.length < 7) :
    decodeByte (s.withRx (f.withDec (matching l))) x = s.withRx (f.withDec (matching (l ++ [x]))) := by
  have : (l ++ [x]).length < 8 := by simp; omega
  simp [decodeByte, State.withRx, RxFrame.withDec, matching, this, setDec, -List.length_append]

theorem foldl_decodeByte_matching {l m : List Byte} (h : l.length + m.length ≤ 7) :
    m.foldl decodeByte (s.withRx (f.withDec (matching l))) = s.withRx (f.withDec (matching (l ++ m))) := by
  induction m generalizing l with
  | nil => simp
  | cons x m ih =>
    simp only [List.length_cons] at h
    rw [List.foldl_cons, decodeByte_matching x (by omega), ih (by simp; omega), List.append_assoc,
      List.singleton_append]

/-- The eighth byte of a row that is not the marker's closes the region (R158; log 16). -/
theorem decodeByte_mismatch {l : List Byte} (x : Byte) (hl : l.length = 7) (hx : l ++ [x] ≠ marker) :
    decodeByte (s.withRx (f.withDec (matching l))) x =
      s.withRx { f with regionOpen := false, dec := idleDecoder } := by
  have : ¬ (l ++ [x]).length < 8 := by simp; omega
  simp [decodeByte, State.withRx, RxFrame.withDec, matching, this, decideMarker, hx, -List.length_append]

/-! ### Rows opened and pixels counted -/

/-- The row that the next pixel finds or begins, with `n` pixels of it received. -/
def RxFrame.atPixel (f : RxFrame) (n : Nat) : RxFrame := { f with row := f.nextRow, pixels := n, rowOpen := true }

/-- The first pixel of a row in the open region finds the decoder matching (R156, R158). -/
theorem openRow_of_beforeRow (h : f.beforeRow = true) :
    openRow f = (f.atPixel 0).withDec (matching []) := by
  simp only [RxFrame.beforeRow, Bool.and_eq_true, Bool.or_eq_true, beq_iff_eq, Bool.not_eq_true',
    decide_eq_true_eq] at h
  obtain ⟨⟨hregion, hdec⟩, ⟨hclosed, hrow⟩ | ⟨hopen, hpixels⟩⟩ := h
  · simp [openRow, RxFrame.nextRow, hclosed, hregion, nextCount_of_lt hrow, RxFrame.withDec, RxFrame.atPixel,
      idleDecoder, matching]
  · obtain ⟨row, pixels, rowOpen, firstRow, regionOpen, dec⟩ := f
    simp_all [openRow, RxFrame.nextRow, RxFrame.withDec, RxFrame.atPixel, idleDecoder, matching]

/-- A pixel behind the first of a row finds the row as it is. -/
theorem openRow_of_open (hopen : f.rowOpen = true) (h : f.pixels ≠ 0 ∨ f.regionOpen = false) : openRow f = f := by
  obtain h | h := h <;> simp [openRow, hopen, h]

/-- Below the region a row is begun with its first pixel, and the decoder is at rest (R156). -/
theorem openRow_of_closed (hclosed : f.rowOpen = false) (hregion : f.regionOpen = false) (hrow : f.row < 65535) :
    openRow f = { f with row := f.row + 1, pixels := 0, rowOpen := true, dec := idleDecoder } := by
  simp [openRow, hclosed, hregion, nextCount_of_lt hrow]

/-- The pixels waiting, with one more behind them. -/
def State.queued (s : State) (p : InPixel) : State := { s with pipe.input := s.pipe.input ++ [p] }

theorem countedPixel_eq {g : RxFrame} (r gr b : BitVec 12) (hg : openRow f = g) (hpixels : g.pixels < 65535) :
    countedPixel f r gr b s = (s.queued ⟨g.pixels, g.row, r, gr, b⟩).withRx { g with pixels := g.pixels + 1 } := by
  simp [countedPixel, hg, nextCount_of_lt hpixels, State.withRx, State.queued]

/-- A pixel that finds the decoder at rest is counted and waits (R1, R156). -/
theorem pixelReceived_idle {g : RxFrame} {r gr b : BitVec 12} (hp : s.powered = true) (hf : s.rx.frame = some f)
    (hg : openRow f = g) (hd : g.dec.state = .idle) (hpixels : g.pixels < 65535) :
    exec (.pixelReceived r gr b) s =
      .next ((s.queued ⟨g.pixels, g.row, r, gr, b⟩).withRx { g with pixels := g.pixels + 1 }) := by
  rw [pixelReceived_eq hp hf, countedPixel_eq r gr b hg hpixels,
    foldl_decodeByte_idle _ (f := { g with pixels := g.pixels + 1 }) rfl hd]

/-! ### Rows of pixels -/

/-- A pixel's three fields. -/
abbrev Fields := BitVec 12 × BitVec 12 × BitVec 12

/-- The event of one pixel of a row. -/
def received (p : Fields) : Instr := .pixelReceived p.1 p.2.1 p.2.2

/-- A pixel at its position. -/
def placed (row x : Nat) (p : Fields) : InPixel := ⟨x, row, p.1, p.2.1, p.2.2⟩

theorem runAll_cons {c : Instr} {cs : List Instr} {t : State} (h : exec c s = .next t) :
    runAll (c :: cs) s = runAll cs t := by
  simp [runAll, h]

/-- The rest of a row of the picture: every pixel is counted and waits at its position (R1, R3). -/
theorem runAll_picture (l : List Fields) (hp : s.powered = true) (hf : s.rx.frame = some f) (hopen : f.rowOpen = true)
    (hregion : f.regionOpen = false) (hd : f.dec.state = .idle) (hl : f.pixels + l.length ≤ 65535) :
    runAll (l.map received) s = .next
      { s with
        rx.frame := some { f with pixels := f.pixels + l.length }
        pipe.input := s.pipe.input ++ l.mapIdx fun i p => placed f.row (f.pixels + i) p } := by
  induction l generalizing s f with
  | nil =>
    simp [runAll, ← hf]
  | cons p l ih =>
    simp only [List.length_cons] at hl
    have hstep : exec (received p) s =
        .next ((s.queued (placed f.row f.pixels p)).withRx { f with pixels := f.pixels + 1 }) :=
      pixelReceived_idle hp hf (openRow_of_open hopen (.inr hregion)) hd (by omega)
    rw [List.map_cons, runAll_cons hstep]
    refine (ih (s := (s.queued (placed f.row f.pixels p)).withRx { f with pixels := f.pixels + 1 })
      (f := { f with pixels := f.pixels + 1 }) hp rfl hopen hregion hd (by simp; omega)).trans ?_
    simp [State.withRx, State.queued, placed, List.mapIdx_cons, Nat.add_assoc, Nat.add_comm 1]

/-- The frame with one more pixel counted in its row. -/
def RxFrame.counted (f : RxFrame) : RxFrame := { f with pixels := f.pixels + 1 }

/-- A pixel whose bytes the decoder takes while it matches: they are decoded with the pixel counted. -/
theorem received_decoded {p : Fields} {g : RxFrame} {d : Decoder} (hp : s.powered = true) (hf : s.rx.frame = some f)
    (hg : openRow f = g.withDec d) (hpixels : g.pixels < 65535) :
    exec (received p) s = .next ((pixelBytes p.1 p.2.1 p.2.2).foldl decodeByte
      ((s.queued (placed g.row g.pixels p)).withRx (g.counted.withDec d))) := by
  rw [received, pixelReceived_eq hp hf, countedPixel_eq _ _ _ hg hpixels]
  rfl

/-- One of the first two pixels of a row in the open region. -/
theorem received_matching {p : Fields} {g : RxFrame} {l : List Byte} (hp : s.powered = true) (hf : s.rx.frame = some f)
    (hg : openRow f = g.withDec (matching l)) (hpixels : g.pixels < 65535) (hl : l.length ≤ 4) :
    exec (received p) s = .next ((s.queued (placed g.row g.pixels p)).withRx
      (g.counted.withDec (matching (l ++ pixelBytes p.1 p.2.1 p.2.2)))) := by
  rw [received_decoded hp hf hg hpixels, foldl_decodeByte_matching (by simpa [pixelBytes] using hl)]

/-- The third pixel of a row whose first eight bytes are not the marker. -/
theorem received_mismatch {p : Fields} {g : RxFrame} {l : List Byte} (hp : s.powered = true) (hf : s.rx.frame = some f)
    (hg : openRow f = g.withDec (matching l)) (hpixels : g.pixels < 65535) (hl : l.length = 6)
    (hne : l ++ (pixelBytes p.1 p.2.1 p.2.2).take 2 ≠ marker) :
    exec (received p) s = .next ((s.queued (placed g.row g.pixels p)).withRx
      { g.counted with regionOpen := false, dec := idleDecoder }) := by
  rw [received_decoded hp hf hg hpixels]
  simp only [pixelBytes, List.foldl_cons, List.foldl_nil]
  rw [decodeByte_matching _ (by omega), decodeByte_mismatch _ (by simp [hl]) (by simpa [pixelBytes] using hne),
    decodeByte_idle (f := { g.counted with regionOpen := false, dec := idleDecoder }) _ rfl rfl]

/-- A row that is not a service line, in the open region: the region closes with its eighth byte (R158). -/
theorem runAll_mismatch {a b c : Fields} (l : List Instr) (hp : s.powered = true) (hf : s.rx.frame = some f)
    (h : f.beforeRow = true) (hne : (rowBytes [a, b, c]).take 8 ≠ marker) :
    runAll (received a :: received b :: received c :: l) s = runAll l
      { s with
        rx.frame := some { f with
          row := f.nextRow, pixels := 3, rowOpen := true, regionOpen := false, dec := idleDecoder }
        pipe.input := s.pipe.input ++ [placed f.nextRow 0 a, placed f.nextRow 1 b, placed f.nextRow 2 c] } := by
  have hopen (n : Nat) (d : Decoder) (hn : n ≠ 0) : openRow ((f.atPixel n).withDec d) = (f.atPixel n).withDec d :=
    openRow_of_open rfl (.inl hn)
  have ha : exec (received a) s = .next ((s.queued (placed f.nextRow 0 a)).withRx
      ((f.atPixel 1).withDec (matching (pixelBytes a.1 a.2.1 a.2.2)))) :=
    received_matching (l := []) hp hf (openRow_of_beforeRow h) (by simp [RxFrame.atPixel]) (by simp)
  rw [runAll_cons ha]
  generalize ht : (s.queued (placed f.nextRow 0 a)).withRx _ = t
  have hb : exec (received b) t = .next ((t.queued (placed f.nextRow 1 b)).withRx
      ((f.atPixel 2).withDec (matching (pixelBytes a.1 a.2.1 a.2.2 ++ pixelBytes b.1 b.2.1 b.2.2)))) :=
    received_matching (g := f.atPixel 1) (by subst ht; exact hp) (by subst ht; rfl) (hopen 1 _ (by decide))
      (by simp [RxFrame.atPixel]) (by simp [pixelBytes])
  rw [runAll_cons hb]
  generalize hu : (t.queued (placed f.nextRow 1 b)).withRx _ = u
  have hc : exec (received c) u = .next ((u.queued (placed f.nextRow 2 c)).withRx
      { f.atPixel 3 with regionOpen := false, dec := idleDecoder }) :=
    received_mismatch (g := f.atPixel 2) (by subst hu ht; exact hp) (by subst hu; rfl) (hopen 2 _ (by decide))
      (by simp [RxFrame.atPixel]) (by simp [pixelBytes]) hne
  rw [runAll_cons hc, ← hu, ← ht]
  simp [State.withRx, State.queued, RxFrame.atPixel]

/-- A whole row of the open region that is not a service line: its pixels wait, and it is of the picture (R158). -/
theorem runAll_pictureRow {row : List Fields} (hp : s.powered = true) (hf : s.rx.frame = some f)
    (h : f.beforeRow = true) (hlen : 3 ≤ row.length) (htop : row.length ≤ 65535)
    (hne : (rowBytes row).take 8 ≠ marker) :
    runAll (row.map received) s = .next
      { s with
        rx.frame := some { f with
          row := f.nextRow, pixels := row.length, rowOpen := true, regionOpen := false, dec := idleDecoder }
        pipe.input := s.pipe.input ++ row.mapIdx fun i p => placed f.nextRow i p } := by
  match row, hlen with
  | a :: b :: c :: rest, _ =>
    have hthree : (rowBytes [a, b, c]).take 8 ≠ marker := hne
    simp only [List.map_cons, List.length_cons] at htop ⊢
    rw [runAll_mismatch _ hp hf h hthree]
    refine (runAll_picture rest (f := { f.atPixel 3 with regionOpen := false, dec := idleDecoder })
      ?_ rfl rfl rfl rfl ?_).trans ?_
    · exact hp
    · simp [RxFrame.atPixel]; omega
    · simp [RxFrame.atPixel, List.mapIdx_cons, Nat.add_comm 3]

/-- Settles O50. -/
theorem pixelsReceived : Obligations.PixelsReceived := by
  refine ⟨fun row f s hp hf h hlen htop hne => ?_, fun r g b s hp => ⟨fun hf => ?_, fun f hf hregion hd hpixels hrow =>
    ⟨fun hopen => ?_, fun hclosed => ?_⟩⟩⟩
  · refine ⟨_, runAll_pictureRow hp hf h hlen htop hne, rfl, ?_, ?_⟩
    · simp [rowDecided, idleDecoder]
    · simp [isServiceRow]
  · simp [exec, execPixelReceived, event, hp, hf]
  · exact pixelReceived_idle hp hf (openRow_of_open hopen (.inr hregion)) hd hpixels
  · exact pixelReceived_idle hp hf (openRow_of_closed hclosed hregion hrow) rfl (by simp)

end Sys2Proof.Machine
end

section
/-! SUPPORT. Pixels processed: the band a pixel begins, the words it waits for, and what it sends. -/

namespace Sys2Proof.Machine

variable {s : State}

/-! ### Bands and fetches (R83, R84) -/

theorem beginFetch_of_busy (h : s.buf.fetch.isSome = true) : beginFetch s = s := by
  unfold beginFetch
  split <;> simp_all

theorem beginFetch_of_empty (h : s.buf.fetchList = []) : beginFetch s = s := by
  unfold beginFetch
  split <;> simp_all

/-- The first row listed is fetched into its place. -/
theorem beginFetch_of_place {row k : Nat} {more : List Nat} (hf : s.buf.fetch = none)
    (hl : s.buf.fetchList = row :: more) (hk : s.buf.place s.pipe.live.bank row = some k) :
    beginFetch s = { s with buf := { s.buf with
      slots := s.buf.slots.set k (some ⟨s.pipe.live.bank, row, 0, []⟩), fetchList := more, fetch := some k } } := by
  simp only [beginFetch, hf, hl, hk]

/-- A place is found from the slots alone. -/
theorem place_congr {b b' : RowBuffer} (h : b'.slots = b.slots) (bank : Bank) (row : Nat) :
    b'.place bank row = b.place bank row := by
  simp only [RowBuffer.place, h]

/-- The list of rows to fetch once band `j` has begun (R83). -/
def listedRows (g : Geometry) (j : Nat) (l : List Nat) : List Nat := if j + 2 ≤ g.rows - 1 then l ++ [j + 2] else l

/-- The pixel at (x, y) is the first of a band that has not begun. -/
def Begins (g : Geometry) (x y begun : Nat) : Prop :=
  x = 0 ∧ y % g.p = 0 ∧ 1 ≤ y / g.p ∧ y / g.p ≤ g.rows - 1 ∧ begun < y / g.p

theorem beginBand_of_not {g : Geometry} {x y : Nat} (hm : s.pipe.live.mode = .full) (hg : s.pipe.live.geometry = some g)
    (h : ¬ Begins g x y s.buf.bandBegun) : beginBand x y s = s := by
  simp only [beginBand, hm, hg]
  exact if_neg h

theorem beginBand_of_begins {g : Geometry} {x y : Nat} (hm : s.pipe.live.mode = .full)
    (hg : s.pipe.live.geometry = some g) (h : Begins g x y s.buf.bandBegun) :
    beginBand x y s = beginFetch { s with buf := { s.buf with
      bandBegun := y / g.p, fetchList := listedRows g (y / g.p) s.buf.fetchList } } := by
  simp only [beginBand, hm, hg]
  exact if_pos h

/-! ### What a pixel waits for (R22) -/

/-- A word is there once its slot is and the word is delivered. -/
theorem wordAt_isSome_iff {b : RowBuffer} {bank : Bank} {g : Geometry} {j i k : Nat} :
    (b.wordAt bank g j i k).isSome = true ↔ ∃ sl, b.slotWith bank j = some sl ∧ i * g.k + k < sl.delivered := by
  unfold RowBuffer.wordAt
  split
  · simp_all
  · split <;> simp_all

/-- The words that a pixel reads: for each of its three fields, at each plane of its case, the four positions (R29). -/
theorem mem_wordsRead {g : Geometry} {d : Depth} {p : InPixel} {x : Nat × Nat × Nat} :
    x ∈ wordsRead g d p ↔ ∃ field ∈ [p.r, p.g, p.b],
      ∃ plane ∈ (planeCase g.levels (extend d (inputValue d field))).planes (extend d (inputValue d field)),
        ∃ at_ ∈ positions g p.x p.y, x = (at_.1, at_.2.1, plane.1) := by
  have hvalues : workingValues d p = [p.r, p.g, p.b].map fun field => extend d (inputValue d field) := rfl
  simp only [wordsRead, hvalues, List.mem_flatMap, List.mem_map]
  constructor
  · rintro ⟨_, ⟨field, hfield, rfl⟩, plane, hplane, at_, hat, rfl⟩
    exact ⟨field, hfield, plane, hplane, at_, hat, rfl⟩
  · rintro ⟨field, hfield, plane, hplane, at_, hat, rfl⟩
    exact ⟨_, ⟨field, hfield, rfl⟩, plane, hplane, at_, hat, rfl⟩

/-- A pixel of a FULL frame can be processed when its row is decided and, in a picture row, every word it reads is
there (R22, R158). -/
theorem pixelReady_full {p : InPixel} {g : Geometry} (hm : s.pipe.live.mode = .full)
    (hg : s.pipe.live.geometry = some g) :
    pixelReady p s = true ↔ rowDecided s p.y = true ∧ (p.y < s.rx.serviceRows ∨
      ∀ field ∈ [p.r, p.g, p.b],
        let w := extend s.pipe.live.din (inputValue s.pipe.live.din field)
        ∀ plane ∈ (planeCase g.levels w).planes w, ∀ at_ ∈ positions g p.x p.y,
          ∃ sl, s.buf.slotWith s.pipe.live.bank at_.1 = some sl ∧ at_.2.1 * g.k + plane.1 < sl.delivered) := by
  simp only [pixelReady, hm, hg, isServiceRow, Bool.and_eq_true, Bool.or_eq_true, decide_eq_true_eq]
  refine and_congr_right fun _ => or_congr_right ?_
  simp only [List.all_eq_true, mem_wordsRead]
  constructor
  · intro h field hfield plane hplane at_ hat
    exact wordAt_isSome_iff.mp (h _ ⟨field, hfield, plane, hplane, at_, hat, rfl⟩)
  · rintro h _ ⟨field, hfield, plane, hplane, at_, hat, rfl⟩
    exact wordAt_isSome_iff.mpr (h field hfield plane hplane at_ hat)

/-! ### What a pixel sends -/

/-- The words in the slots are read of the row buffer and the live context alone (R30). -/
theorem slotLook_congr {t : State} (hbuf : t.buf = s.buf) (hlive : t.pipe.live = s.pipe.live) :
    slotLook t = slotLook s := by
  funext j i k
  simp only [slotLook, hbuf, hlive]

theorem pixelChain_congr {t : State} (p : InPixel) (ch : Channel) (field : BitVec 12) (hbuf : t.buf = s.buf)
    (hlive : t.pipe.live = s.pipe.live) : pixelChain t p ch field = pixelChain s p ch field := by
  simp only [pixelChain, slotLook_congr hbuf hlive, hlive]

/-- A pixel processed, from what its chain gives: black in a service row, else the chain's outputs in the order R, G, B
with their events (R18, R25, R45, R57). -/
theorem processPixel_eq {p : InPixel} {w : State} {result : Channel → BitVec 12 → ChainResult}
    (h : ∀ ch field, pixelChain w p ch field = result ch field) :
    let c := w.pipe.live
    let sent (ch : Channel) (field : BitVec 12) : Nat :=
      if p.y < w.rx.serviceRows then 0 else outputOf c p.x p.y (result ch field)
    let raised : Monitor :=
      if p.y < w.rx.serviceRows then w.mon
      else ((w.mon.channel w.timing.frameNumber c.masks p.x p.y .r (result .r p.r)).channel
        w.timing.frameNumber c.masks p.x p.y .g (result .g p.g)).channel
        w.timing.frameNumber c.masks p.x p.y .b (result .b p.b)
    processPixel p w = { w with
      pipe := { w.pipe with
        panel := some ⟨p.x, p.y, outputField c.dout (sent .r p.r), outputField c.dout (sent .g p.g),
          outputField c.dout (sent .b p.b)⟩ }
      mon := raised.sign c.window p.x p.y (sent .r p.r) (sent .g p.g) (sent .b p.b) } := by
  by_cases hy : p.y < w.rx.serviceRows
  · simp only [processPixel, isServiceRow, hy, decide_true, if_true]
    rfl
  · simp only [processPixel, isServiceRow, hy, decide_false, if_false, processPicture, h]
    rfl

/-- Settles O51. -/
theorem pixelsProcessed : Obligations.PixelsProcessed := by
  intro p rest s hp hi howed u c result sent raised
  have hexec := pixelProcess_eq hp hi
  have hpipe : u.pipe = s.pipe := by simp [u]
  have hrx : u.rx = s.rx := by simp [u]
  have hmon : u.mon = s.mon := by simp [u]
  have htiming : u.timing = s.timing := by simp [u]
  have hdecided : rowDecided u p.y = rowDecided s p.y := by simp only [rowDecided, hrx]
  refine ⟨fun hready => ?_, fun hwaits => ?_, fun hmode => ⟨beginBand_of_ne _ _ hmode, ?_⟩,
    fun g hmode hgeo => ⟨?_, ?_, ?_, ?_⟩⟩
  · refine hexec.trans (congrArg _ ((if_pos hready).trans ?_))
    have hchain : ∀ ch field, pixelChain { u with pipe.input := rest } p ch field = result ch field := by
      intro ch field
      refine (pixelChain_congr (s := u) (t := { u with pipe.input := rest }) p ch field rfl rfl).trans ?_
      rw [pixelChain, hpipe]
    rw [endWhenSent_of_none _ (by simpa using howed)]
    refine (processPixel_eq hchain).trans ?_
    simp only [hpipe, hrx, hmon, htiming]
    rfl
  · rw [hexec]
    exact congrArg _ (if_neg (ne_true_of_eq_false hwaits))
  · rw [pixelReady_of_ne p (by rwa [hpipe]), hdecided]
  · exact beginBand_of_not hmode hgeo
  · intro hbegins hidle
    refine (beginBand_of_begins hmode hgeo hbegins).trans ?_
    obtain hbusy | hempty := hidle
    · exact beginFetch_of_busy hbusy
    · exact beginFetch_of_empty hempty
  · intro row k more o hbegins hfetch hlist hslot htakes hfirst
    refine (beginBand_of_begins hmode hgeo hbegins).trans (beginFetch_of_place hfetch hlist ?_)
    exact (place_congr rfl _ _).trans (place_eq hslot htakes hfirst)
  · have h := pixelReady_full (s := u) (p := p) (g := g) (by rwa [hpipe]) (by rwa [hpipe])
    rw [hpipe, hrx, hdecided] at h
    exact h

end Sys2Proof.Machine
end


section
/-! SUPPORT. The correction arithmetic of one pixel-channel: its weighted means, the rounding of Stage 4, and what the
chain and the squeeze give. -/

namespace Sys2Proof.Machine

/-! ### Weighted sums -/

/-- Values between `lo` and `hi` weighted by at most `total` in all sum to between `lo · total` and `hi · total`, where
`lo ≤ 0 ≤ hi`: the shortfall counts as zeros (R31). -/
theorem weightedSum_bounds {α : Type} {l : List α} {value : α → Int} {weight : α → Nat} {lo hi : Int} {total : Nat}
    (hlo : lo ≤ 0) (hhi : 0 ≤ hi) (hvalue : ∀ a ∈ l, lo ≤ value a ∧ value a ≤ hi)
    (htotal : (l.map weight).sum ≤ total) :
    lo * total ≤ (l.map fun a => value a * (weight a : Int)).sum ∧
      (l.map fun a => value a * (weight a : Int)).sum ≤ hi * total := by
  induction l generalizing total with
  | nil => exact ⟨Int.mul_nonpos_of_nonpos_of_nonneg hlo (Int.natCast_nonneg total),
      Int.mul_nonneg hhi (Int.natCast_nonneg total)⟩
  | cons a l ih =>
    simp only [List.map_cons, List.sum_cons] at htotal ⊢
    obtain ⟨rest, rfl⟩ := Nat.exists_eq_add_of_le (Nat.le_of_add_right_le htotal)
    obtain ⟨hlow, hhigh⟩ := ih (fun b hb => hvalue b (List.mem_cons_of_mem a hb)) (Nat.add_le_add_iff_left.mp htotal)
    obtain ⟨halow, hahigh⟩ := hvalue a List.mem_cons_self
    have hweight : (0 : Int) ≤ weight a := Int.natCast_nonneg _
    rw [Int.natCast_add, Int.mul_add, Int.mul_add]
    exact ⟨Int.add_le_add (Int.mul_le_mul_of_nonneg_right halow hweight) hlow,
      Int.add_le_add (Int.mul_le_mul_of_nonneg_right hahigh hweight) hhigh⟩

/-! ### Stage 2: deltas and planes (R29, R31) -/

/-- A delta field is a signed number of 10 bits. -/
theorem deltaOf_bounds (w : Word) (ch : Channel) : -512 ≤ deltaOf w ch ∧ deltaOf w ch ≤ 511 := by
  have hfield (v : BitVec 10) : -512 ≤ v.toInt ∧ v.toInt ≤ 511 :=
    ⟨v.le_toInt, Int.le_of_lt_add_one v.toInt_lt⟩
  cases ch <;> exact hfield _

theorem SlotWord.delta_bounds (v : SlotWord) (ch : Channel) : -512 ≤ v.delta ch ∧ v.delta ch ≤ 511 := by
  unfold SlotWord.delta
  split
  · decide
  · exact deltaOf_bounds v.word ch

/-- The four spatial weights sum to P² (R27). -/
theorem positions_weights_sum {g : Geometry} (hp : 0 < g.p) (x y : Nat) :
    ((positions g x y).map fun at_ => at_.2.2).sum = g.p ^ 2 := by
  obtain ⟨a, ha⟩ := Nat.exists_eq_add_of_le (Nat.le_of_lt (Nat.mod_lt x hp))
  obtain ⟨b, hb⟩ := Nat.exists_eq_add_of_le (Nat.le_of_lt (Nat.mod_lt y hp))
  have hx : g.p - x % g.p = a := by omega
  have hy : g.p - y % g.p = b := by omega
  simp only [positions, axisOf, List.map_cons, List.map_nil, List.sum_cons, List.sum_nil, hx, hy]
  calc _ = (x % g.p + a) * (y % g.p + b) := by
        simp only [Nat.add_mul, Nat.mul_add]
        omega
    _ = g.p ^ 2 := by rw [← ha, ← hb, Nat.pow_two]

theorem planeSum_bounds {g : Geometry} (hp : 0 < g.p) (look : Look) (ch : Channel) (x y k : Nat) :
    -512 * (g.p ^ 2 : Nat) ≤ planeSum g look ch x y k ∧ planeSum g look ch x y k ≤ 511 * (g.p ^ 2 : Nat) :=
  weightedSum_bounds (l := positions g x y) (value := fun at_ => (look at_.1 at_.2.1 k).delta ch)
    (weight := fun at_ => at_.2.2) (by decide) (by decide) (fun _ _ => SlotWord.delta_bounds _ ch)
    (Nat.le_of_eq (positions_weights_sum hp x y))

/-! ### Stage 3: the plane case (R32, R33) -/

/-- A plane case whose factors fit its divisor: the divisor is positive, and the plane factors sum to at most it. -/
def PlaneCase.Fits (w : Nat) (c : PlaneCase) : Prop :=
  0 < c.divisor ∧ ((c.planes w).map Prod.snd).sum ≤ c.divisor

theorem caseFrom_fits {w lo : Nat} {levels : List Nat} (k : Nat) (hlevels : levelsAbove lo levels = true)
    (hw : ∀ l ∈ levels.head?, l ≤ w) : (caseFrom w k levels).Fits w := by
  induction levels generalizing lo k with
  | nil => simp [caseFrom, PlaneCase.Fits, PlaneCase.divisor, PlaneCase.planes]
  | cons a rest ih =>
    cases rest with
    | nil => simp [caseFrom, PlaneCase.Fits, PlaneCase.divisor, PlaneCase.planes]
    | cons b rest =>
      simp only [levelsAbove, Bool.and_eq_true, decide_eq_true_eq] at hlevels ih
      obtain ⟨-, ⟨hab, hb⟩, hrest⟩ := hlevels
      have ha : a ≤ w := hw a rfl
      unfold caseFrom
      split
      · simp only [PlaneCase.Fits, PlaneCase.divisor, PlaneCase.planes, List.map_cons, List.map_nil, List.sum_cons,
          List.sum_nil]
        omega
      · exact ih (k + 1) ⟨⟨hab, hb⟩, hrest⟩ (by simp; omega)

theorem planeCase_fits {levels : List Nat} (w : Nat) (hlevels : levelsAbove 0 levels = true) :
    (planeCase levels w).Fits w := by
  cases levels with
  | nil => simp [planeCase, PlaneCase.Fits, PlaneCase.divisor, PlaneCase.planes]
  | cons l0 rest =>
    simp only [planeCase]
    split
    · simp only [PlaneCase.Fits, PlaneCase.divisor, PlaneCase.planes, List.map_cons, List.map_nil, List.sum_cons,
        List.sum_nil]
      omega
    · exact caseFrom_fits 0 hlevels (by simp; omega)

/-- What a valid record says of the pitch, the scale shift and the levels (R65). -/
theorem Geometry.valid_spec {g : Geometry} (h : g.valid = true) :
    0 < g.p ∧ g.s ≤ 3 ∧ levelsAbove 0 g.levels = true := by
  simp only [Geometry.valid, Geometry.fieldsOk, Geometry.levelsOk, Bool.and_eq_true, Bool.or_eq_true, beq_iff_eq,
    decide_eq_true_eq] at h
  obtain ⟨⟨⟨⟨⟨⟨-, hp⟩, -⟩, -⟩, hs⟩, -⟩, -, hlevels⟩ := h
  exact ⟨by omega, hs, hlevels⟩

/-- D is positive (R33). -/
theorem blendDivisor_pos {g : Geometry} (h : g.valid = true) (w : Nat) : 0 < blendDivisor g w := by
  obtain ⟨hp, -, hlevels⟩ := g.valid_spec h
  exact Nat.mul_pos (Nat.pow_pos hp) (planeCase_fits w hlevels).1

/-- N lies in −512 · D..511 · D (R33). -/
theorem blendNumerator_bounds {g : Geometry} (h : g.valid = true) (look : Look) (ch : Channel) (x y w : Nat) :
    -512 * (blendDivisor g w : Int) ≤ blendNumerator g look ch x y w ∧
      blendNumerator g look ch x y w ≤ 511 * (blendDivisor g w : Int) := by
  obtain ⟨hp, -, hlevels⟩ := g.valid_spec h
  have hsum := weightedSum_bounds (l := (planeCase g.levels w).planes w)
    (value := fun plane => planeSum g look ch x y plane.1) (weight := Prod.snd)
    (Int.mul_nonpos_of_nonpos_of_nonneg (by decide) (Int.natCast_nonneg _))
    (Int.mul_nonneg (by decide) (Int.natCast_nonneg _)) (fun plane _ => planeSum_bounds hp look ch x y plane.1) (planeCase_fits w hlevels).2
  simp only [Int.mul_assoc, ← Int.natCast_mul] at hsum
  exact hsum

/-! ### Stage 4: rounding (R35, R36) -/

/-- `roundAway` gives the nearest integer, and of two equally near the one farther from zero (R35). -/
theorem roundAway_spec (num : Int) {den : Nat} (hden : 0 < den) :
    (2 * (roundAway num den * den - num)).natAbs ≤ den ∧
      ((2 * (roundAway num den * den - num)).natAbs = den → num.natAbs < (roundAway num den * den).natAbs) := by
  have hquotient (a : Int) : 2 * (a / (2 * den) * den) ≤ a ∧ a < 2 * (a / (2 * den) * den) + 2 * den := by
    have hdiv := Int.mul_ediv_add_emod a (2 * den)
    have hnonneg := Int.emod_nonneg a (b := 2 * den) (by omega)
    have hlt := Int.emod_lt_of_pos a (b := 2 * den) (by omega)
    have hcomm : 2 * (den : Int) * (a / (2 * den)) = 2 * (a / (2 * den) * den) := by
      rw [Int.mul_assoc, Int.mul_comm (den : Int)]
    omega
  unfold roundAway
  split
  · have hq := hquotient (2 * num + den)
    omega
  · have hq := hquotient (-2 * num + den)
    rw [Int.neg_mul]
    omega

/-- Rounding does not leave a range whose ends are integers (R36). -/
theorem roundAway_bounds {num lo hi : Int} {den : Nat} (hden : 0 < den) (hlo : lo * den ≤ num)
    (hhi : num ≤ hi * den) : lo ≤ roundAway num den ∧ roundAway num den ≤ hi := by
  have hnear := (roundAway_spec num hden).1
  have hden' : (0 : Int) ≤ den := Int.natCast_nonneg den
  refine ⟨Int.le_of_lt_add_one (Int.lt_of_mul_lt_mul_right ?_ hden'),
    Int.le_of_lt_add_one (Int.lt_of_mul_lt_mul_right ?_ hden')⟩
  all_goals
    rw [Int.add_mul, Int.one_mul]
    omega

/-- Settles O54: the rounding is to the nearest whatever its numerator is, and D is positive. -/
theorem correctionRounded : Obligations.CorrectionRounded := by
  intro g look ch x y w h n d δ
  have hpos := blendDivisor_pos h w
  exact ⟨Int.natCast_pos.mpr hpos, roundAway_spec n hpos⟩

theorem correction_bounds {g : Geometry} (h : g.valid = true) (look : Look) (ch : Channel) (x y w : Nat) :
    -512 * 2 ^ g.s ≤ correction g look ch x y w ∧ correction g look ch x y w ≤ 511 * 2 ^ g.s := by
  obtain ⟨hlow, hhigh⟩ := blendNumerator_bounds h look ch x y w
  have hscale : (0 : Int) ≤ 2 ^ g.s := Int.pow_nonneg (by decide)
  refine roundAway_bounds (blendDivisor_pos h w) ?_ ?_ <;> rw [Int.mul_right_comm]
  · exact Int.mul_le_mul_of_nonneg_right hlow hscale
  · exact Int.mul_le_mul_of_nonneg_right hhigh hscale

/-- Settles O55: N / D is a weighted mean of deltas, and rounding does not leave a range with integer ends. -/
theorem correctionRange : Obligations.CorrectionRange := by
  intro g look ch x y w h
  obtain ⟨hlow, hhigh⟩ := correction_bounds h look ch x y w
  obtain ⟨-, hs, -⟩ := g.valid_spec h
  exact ⟨hlow, hhigh, by omega⟩

/-! ### Poisoned words (R29) -/

theorem SlotWord.delta_congr {u v : SlotWord} (hpoisoned : u.poisoned = v.poisoned)
    (hword : v.poisoned = false → u.word = v.word) (ch : Channel) : u.delta ch = v.delta ch := by
  cases hv : v.poisoned with
  | true => simp [SlotWord.delta, hpoisoned, hv]
  | false => simp [SlotWord.delta, hpoisoned, hv, hword hv]

/-- The correction reads the words through the deltas they contribute. -/
theorem correction_congr {look other : Look} {ch : Channel} (h : ∀ j i k, (other j i k).delta ch = (look j i k).delta ch)
    (g : Geometry) (x y w : Nat) : correction g other ch x y w = correction g look ch x y w := by
  simp only [correction, blendNumerator, planeSum, h]

/-- NODE_ECC reads the words through their poison marks. -/
theorem eccRaised_congr {look other : Look} (h : ∀ j i k, (other j i k).poisoned = (look j i k).poisoned)
    (g : Geometry) (x y w : Nat) : eccRaised g other x y w = eccRaised g look x y w := by
  simp only [eccRaised, h]

/-- Settles O56: the chain reads the words through their deltas and poison marks alone. -/
theorem poisonedValueUnused : Obligations.PoisonedValueUnused := by
  intro c look other ch x y w h
  have hdelta : ∀ j i k, (other j i k).delta ch = (look j i k).delta ch :=
    fun j i k => SlotWord.delta_congr (h j i k).1 (h j i k).2 ch
  have hpoisoned : ∀ j i k, (other j i k).poisoned = (look j i k).poisoned := fun j i k => (h j i k).1
  simp only [chain, correction_congr hdelta, eccRaised_congr hpoisoned]

/-! ### Stages 5 to 7 (R37 to R39) -/

theorem clip_eq (v : Int) : (clip v : Int) = max 0 (min v 16383) := by
  unfold clip
  split
  · omega
  · split <;> omega

theorem mem_clipCondition (v : Int) (k : Condition) :
    k ∈ clipCondition v ↔ k = .clipLow ∧ v < 0 ∨ k = .clipHigh ∧ 16383 < v := by
  unfold clipCondition
  split
  · have hlow : ¬ 16383 < v := by omega
    simp [*]
  · split <;> simp [*]

theorem mem_limitCondition (v ceiling : Nat) (k : Condition) :
    k ∈ limitCondition v ceiling ↔ k = .limit ∧ ceiling < v := by
  unfold limitCondition
  split <;> simp [*]

/-- The conditions of a FULL chain come in pipeline order, whichever of its stages raise one (R44). -/
theorem conditions_inOrder (ecc : Bool) (v : Int) (v2 ceiling : Nat) :
    (((if ecc then [Condition.nodeEcc] else []) ++ clipCondition v ++ limitCondition v2 ceiling).map
      conditionCode).Pairwise (· < ·) := by
  unfold clipCondition limitCondition
  repeat' split
  all_goals decide

theorem chain_full {c : LiveContext} {g : Geometry} (hmode : c.mode = .full) (hgeo : c.geometry = some g)
    (look : Look) (ch : Channel) (x y w : Nat) :
    chain c look ch x y w = finishChain c ch w (some (correction g look ch x y w))
      (some (w + correction g look ch x y w))
      ((if eccRaised g look x y w then [.nodeEcc] else []) ++ clipCondition (w + correction g look ch x y w))
      (clip (w + correction g look ch x y w)) := by
  simp only [chain, hmode, hgeo]

theorem chain_mismatch {c : LiveContext} (hmode : c.mode = .mismatch) (look : Look) (ch : Channel) (x y w : Nat) :
    chain c look ch x y w = finishChain c ch w none none [] w := by
  simp only [chain, hmode]

theorem chain_uncorrected {c : LiveContext} (hmode : c.mode = .bypass ∨ c.mode = .freeRun) (look : Look)
    (ch : Channel) (x y w : Nat) : chain c look ch x y w = ⟨w, none, none, [], w⟩ := by
  obtain hmode | hmode := hmode <;> simp only [chain, hmode]

/-- The working value that a trap falls back on is the one that came in (R47). -/
theorem chain_w (c : LiveContext) (look : Look) (ch : Channel) (x y w : Nat) : (chain c look ch x y w).w = w := by
  unfold chain
  split <;> rfl

/-- The range of δ over all S (R36, after Table 15). -/
theorem correction_within {g : Geometry} (h : g.valid = true) (look : Look) (ch : Channel) (x y w : Nat) :
    -4096 ≤ correction g look ch x y w ∧ correction g look ch x y w ≤ 4088 := by
  obtain ⟨hlow, hhigh⟩ := correction_bounds h look ch x y w
  obtain ⟨-, hs, -⟩ := g.valid_spec h
  have hscale : (2 : Int) ^ g.s ≤ 2 ^ 3 := by
    exact_mod_cast Nat.pow_le_pow_right (by decide) hs
  omega

/-- Settles O57, by frame mode. -/
theorem chainByMode : Obligations.ChainByMode := by
  intro c look ch x y w hw _ r
  refine ⟨fun hmode => chain_uncorrected hmode look ch x y w, fun hmode => chain_mismatch hmode look ch x y w,
    fun g hmode hgeo hg => ?_⟩
  have hr : r = _ := chain_full hmode hgeo look ch x y w
  obtain ⟨hlow, hhigh⟩ := correction_within hg look ch x y w
  generalize correction g look ch x y w = δ at hr hlow hhigh ⊢
  have hgain : (applyGain (clip (w + δ)) (c.gains.of ch) : Int) =
      (max 0 (min (w + δ) 16383) * c.gains.of ch + 2048) / 4096 := by
    rw [← clip_eq, applyGain, Int.natCast_ediv, Int.natCast_add, Int.natCast_mul]
    rfl
  have hmem (k : Condition) : k ∈ r.conditions ↔ k = .nodeEcc ∧ eccRaised g look x y w = true ∨
      (k = .clipLow ∧ (w : Int) + δ < 0 ∨ k = .clipHigh ∧ 16383 < (w : Int) + δ) ∨
      k = .limit ∧ c.ceiling < applyGain (clip (w + δ)) (c.gains.of ch) := by
    rw [hr]
    simp only [finishChain, List.mem_append, mem_clipCondition, mem_limitCondition, or_assoc]
    cases eccRaised g look x y w <;> simp
  refine ⟨w + δ, by rw [hr]; rfl, by rw [hr]; rfl, rfl, by omega, by omega, by simp [hmem], by simp [hmem],
    by simp [hmem], ?_, ?_, ?_⟩
  · rw [hmem, ← hgain]
    simp
  · rw [hr, ← hgain]
    simp only [finishChain]
    omega
  · rw [hr]
    exact conditions_inOrder ..

/-! ### Stage 8: the squeeze (R40 to R43, R47) -/

theorem Depth.width_bounds (d : Depth) : 8 ≤ d.width ∧ d.width ≤ 12 := by cases d <;> decide

/-- No rounding adds a whole output code (R41). -/
theorem squeezeBias_lt (rnd : Rounding) {shift : Nat} (hshift : 0 < shift) (x y : Nat) :
    squeezeBias rnd shift x y < 2 ^ shift := by
  have hpos : 0 < 2 ^ shift := Nat.two_pow_pos shift
  cases rnd with
  | nearest => exact Nat.pow_lt_pow_right (by decide) (by omega)
  | truncate => exact hpos
  | ordered =>
    have hvalue : orderedValue x y < 16 := by
      have hmatrix : ∀ i < 4, ∀ j < 4, orderedMatrix.getD (4 * i + j) 0 < 16 := by decide
      exact hmatrix _ (Nat.mod_lt y (by decide)) _ (Nat.mod_lt x (by decide))
    exact Nat.div_lt_of_lt_mul (Nat.mul_lt_mul_of_pos_right hvalue hpos)

theorem squeeze_lt (rnd : Rounding) (d : Depth) (x y v : Nat) : squeeze rnd d x y v < 2 ^ d.width := by
  have hpos := Nat.two_pow_pos d.width
  unfold squeeze
  omega

/-- The squeeze of a value up to the ceiling is at most ceil(C_ceil / 2^(14 − Dout)) (R43). -/
theorem squeeze_le {v ceiling : Nat} (h : v ≤ ceiling) (rnd : Rounding) (d : Depth) (x y : Nat) :
    squeeze rnd d x y v ≤ (ceiling + 2 ^ (14 - d.width) - 1) / 2 ^ (14 - d.width) := by
  have hbias := squeezeBias_lt rnd (shift := 14 - d.width) (by have := d.width_bounds; omega) x y
  exact Nat.le_trans (Nat.min_le_left _ _) (Nat.div_le_div_right (by omega))

/-- An output component fills the top Dout bits of its field (R1). -/
theorem outputField_toNat {d : Depth} {out : Nat} (h : out < 2 ^ d.width) :
    (outputField d out).toNat = out * 2 ^ (12 - d.width) := by
  have hfits : out * 2 ^ (12 - d.width) < 2 ^ 12 :=
    calc _ < 2 ^ d.width * 2 ^ (12 - d.width) := Nat.mul_lt_mul_of_pos_right h (Nat.two_pow_pos _)
      _ = 2 ^ 12 := by rw [← Nat.pow_add, Nat.add_sub_cancel' d.width_bounds.2]
  exact Nat.mod_eq_of_lt hfits

/-- Settles O58: what is squeezed in a FULL frame, trapped or not, is at most the ceiling. -/
theorem outputRange : Obligations.OutputRange := by
  intro c look ch x y w r out
  have hlt : out < 2 ^ c.dout.width := squeeze_lt ..
  refine ⟨hlt, fun hmode hgeo => squeeze_le ?_ .., fun htrapped => ?_, outputField_toNat hlt⟩
  · obtain ⟨g, hgeo⟩ := Option.isSome_iff_exists.mp hgeo
    have hvalue : r.value ≤ c.ceiling := by
      rw [show r = _ from chain_full hmode hgeo look ch x y w]
      exact Nat.min_le_right _ _
    split
    · exact Nat.min_le_right _ _
    · exact hvalue
  · have hout : out = squeeze c.rounding c.dout x y (min r.w c.ceiling) :=
      congrArg (squeeze c.rounding c.dout x y) (if_pos htrapped)
    rw [hout, show r.w = w from chain_w c look ch x y w]

end Sys2Proof.Machine
end

section
/-! SUPPORT. The monitor: what the events of one pixel-channel do to it, which positions an applied window holds, and the
replies of its commands. -/

namespace Sys2Proof.Machine

/-! ### Conditions of a pixel-channel (R44, R46) -/

/-- The conditions of a chain come in pipeline order, in every frame mode (R44). -/
theorem chain_inOrder (c : LiveContext) (look : Look) (ch : Channel) (x y w : Nat) :
    ((chain c look ch x y w).conditions.map conditionCode).Pairwise (· < ·) := by
  unfold chain
  split
  · exact conditions_inOrder ..
  · exact conditions_inOrder false 0 _ _
  · exact .nil

/-- No condition is raised twice for one pixel-channel. -/
theorem chain_nodup (c : LiveContext) (look : Look) (ch : Channel) (x y w : Nat) :
    (chain c look ch x y w).conditions.Nodup :=
  (List.pairwise_map.mp (chain_inOrder c look ch x y w)).imp fun h heq => Nat.ne_of_lt h (congrArg conditionCode heq)

/-! ### What raising does (R46) -/

/-- A count after a pixel-channel that raised its condition or did not, stopping at the top (R46, R47). -/
def countIf (raised : Bool) (n : Nat) : Nat := if raised = true ∧ n < 16777215 then n + 1 else n

/-- The frame count of one condition. -/
def Counts.get (c : Counts) : Condition → Nat
  | .nodeEcc => c.nodeEcc
  | .clipLow => c.clipLow
  | .clipHigh => c.clipHigh
  | .limit => c.limit

theorem Counts.eq_of_get {c d : Counts} (h : ∀ k, c.get k = d.get k) : c = d := by
  obtain ⟨_, _, _, _⟩ := c
  obtain ⟨_, _, _, _⟩ := d
  exact (Counts.mk.injEq ..).mpr ⟨h .nodeEcc, h .clipLow, h .clipHigh, h .limit⟩

theorem Counts.get_add (c : Counts) (k d : Condition) : (c.add k).get d = countIf (d == k) (c.get d) := by
  cases k <;> cases d <;> simp [Counts.add, Counts.get, countIf, countUp, Config.countTop] <;> rfl

/-- Every raised condition sets its flag. -/
theorem Monitor.sticky_foldl_raise (m : Monitor) (l : List Condition) (d : Condition) :
    (l.foldl Monitor.raise m).sticky.get d = (m.sticky.get d || l.contains d) := by
  induction l generalizing m with
  | nil => simp
  | cons k l ih =>
    rw [List.foldl_cons, ih, List.contains_cons, ← Bool.or_assoc]
    exact congrArg (· || _) (Marks.get_raise ..)

/-- Every condition raised once adds one to its count. -/
theorem Monitor.counts_foldl_raise (m : Monitor) {l : List Condition} (hl : l.Nodup) (d : Condition) :
    (l.foldl Monitor.raise m).counts.get d = countIf (l.contains d) (m.counts.get d) := by
  induction l generalizing m with
  | nil => rfl
  | cons k l ih =>
    obtain ⟨hk, hl⟩ := List.nodup_cons.mp hl
    have hraise : (m.raise k).counts.get d = countIf (d == k) (m.counts.get d) := Counts.get_add ..
    rw [List.foldl_cons, ih _ hl, hraise, List.contains_cons]
    by_cases hd : d = k
    · subst hd
      simp [hk, countIf]
    · simp [hd, countIf]

/-- Settles O52. -/
theorem channelEvents : Obligations.ChannelEvents := by
  intro m frame masks x y ch c look w r t up
  have hw : r.w = w := chain_w c look ch x y w
  have hnodup : r.conditions.Nodup := chain_nodup c look ch x y w
  have ht : t = if r.conditions.any masks.get then (r.conditions.foldl Monitor.raise m).trap frame x y ch r
      else r.conditions.foldl Monitor.raise m := rfl
  have hflags : t.sticky = (r.conditions.foldl Monitor.raise m).sticky := by rw [ht]; split <;> rfl
  have hcounts : t.counts = (r.conditions.foldl Monitor.raise m).counts := by rw [ht]; split <;> rfl
  refine ⟨fun k => by rw [hflags, Monitor.sticky_foldl_raise], ?_, ?_, fun q hq => ?_, fun hempty huntrapped => ?_,
    fun hempty htrapped => ?_, ?_⟩
  · have hget := Monitor.counts_foldl_raise m hnodup
    rw [← hcounts] at hget
    exact Counts.eq_of_get fun k => by cases k <;> exact hget _
  · rw [ht]
    split <;> simp [*, Monitor.trap, up, countUp, Config.countTop]
  · exact (m.channel_stands frame masks x y ch r).1 q hq
  · rw [ht, huntrapped]
    simpa using hempty
  · obtain ⟨k, hk, -⟩ := List.any_eq_true.mp htrapped
    obtain ⟨first, rest, hc⟩ := List.exists_cons_of_ne_nil (List.ne_nil_of_mem hk)
    refine ⟨first, by rw [hc]; rfl, ?_⟩
    have hnone : (r.conditions.foldl Monitor.raise m).capture = none := by simpa using hempty
    rw [ht, if_pos htrapped]
    generalize r.conditions.foldl Monitor.raise m = raised at hnone
    simp only [Monitor.trap, hnone, hc, hw]
  · exact m.channel_frame frame masks x y ch r

/-! ### The applied window (R56) -/

/-- A rectangle that is empty where a corner lies beyond the other holds the positions between its corners. -/
theorem holds_corners (r : Rect) (x y : Nat) :
    (if r.x0 > r.x1 || r.y0 > r.y1 then Window.empty else .rect r).holds x y = true ↔
      r.x0 ≤ x ∧ x ≤ r.x1 ∧ r.y0 ≤ y ∧ y ≤ r.y1 := by
  split <;> rename_i hcorners <;> simp only [Bool.or_eq_true, decide_eq_true_eq] at hcorners
  · simp only [Window.holds, Bool.false_eq_true, false_iff]
    omega
  · simp [Window.holds, and_assoc]

/-- Settles O53: a size of 0 leaves no position, any other limits the far corner to the size's last column and row. -/
theorem windowClipped : Obligations.WindowClipped := by
  intro r x y inside
  refine ⟨holds_corners r x y, fun z => ?_⟩
  by_cases hz : z.width = 0 ∨ z.height = 0
  · have hempty : applyWindow r (some z) = .empty := by simp [applyWindow, hz]
    simp only [hempty, Window.holds, Bool.false_eq_true, false_iff]
    omega
  · have hclipped := holds_corners ⟨r.x0, r.y0, min r.x1 (z.width - 1), min r.y1 (z.height - 1)⟩ x y
    simp only [applyWindow, Bool.or_eq_true, decide_eq_true_eq, hz, if_false, inside]
    simp only [Bool.or_eq_true, decide_eq_true_eq] at hclipped
    rw [hclipped]
    omega

/-! ### The monitor's commands (R50 to R55, R61) -/

/-- The upper and the lower half of a word are that word. -/
theorem put_halves (w : Word) : put (bits w 31 16) 31 16 ||| put (bits w 15 0) 15 0 = w := by
  refine BitVec.eq_of_getLsbD_eq fun i hi => ?_
  rw [BitVec.getLsbD_or, getLsbD_put_bits, getLsbD_put_bits]
  by_cases h : 16 ≤ i
  · simp [h, show i ≤ 31 by omega]
  · simp [h, show i ≤ 15 by omega]

/-- The window words are those that the setting came from (R55). -/
theorem rectWords_rectOf (v w : Word) : rectWords (rectOf v w) = [v, w] := by
  simp only [rectWords, rectOf, put_halves]

theorem reportWords_length (r : Report) : (reportWords r).length = 12 := by
  simp only [reportWords]
  cases r.window <;> rfl

/-- A command that every state but STARTING serves, held or not, answers with a payload of the right length (Table 46). -/
theorem plain_answers {p : Packet} {n : Nat} {s : State} {l : State → List Word} {f : State → State} {ws : List Word}
    (ht : s.canTake p = true) (hl : s.life.lifecycle ≠ .starting) (hn : (p.payload.length != n) = false)
    (hws : l s.taken = ws) :
    answers (take p (tested p .plain [lengthIs p n] fun u => done p (l u) (f u)) s) (f s.taken) p.tag p.code .done ws := by
  rw [take_canTake s _ ht, dequeue_taken,
    tested_runs (gateRefusal_plain s.taken hl) (by simp [firstFailing, lengthIs, hn]), hws]
  exact answers_post _ _ _ _ _ rfl

/-- Settles O19. -/
theorem monitorCommandsAnswer : Obligations.MonitorCommandsAnswer := by
  intro tag s hl
  exact ⟨fun v w ht => plain_answers ht hl rfl (rectWords_rectOf v w),
    fun w ht => ⟨fun r _ => reportWords_length r, plain_answers ht hl rfl rfl⟩,
    fun w ht => plain_answers ht hl rfl rfl, fun w ht => plain_answers ht hl rfl rfl,
    fun w ht => plain_answers ht hl rfl rfl⟩

end Sys2Proof.Machine
end

section
/-! SUPPORT. Every step keeps queues, logs and counts within their capacities: the invariant block by block, and what each
operation of a block does to it. -/

namespace Sys2Proof.Machine

/-! ### The monitor (R46, R47, R57, R60) -/

/-- The ring and the counts of the monitor within their capacities. -/
structure Monitor.Fits (m : Monitor) : Prop where
  ring : m.ring.length ≤ Config.ringSize
  pixels : ∀ a, m.acc = some a → a.pixels ≤ Config.pixelCountTop
  counts : ∀ k, m.counts.get k ≤ Config.countTop
  trapped : m.trapped ≤ Config.countTop

theorem countUp_le {top n : Nat} (h : n ≤ top) : countUp top n ≤ top := by
  unfold countUp
  split <;> omega

/-- A list with room takes one more. -/
theorem length_append_le {α : Type} {l : List α} {top : Nat} (h : l.length < top) (x : α) :
    (l ++ [x]).length ≤ top := by
  rw [List.length_append, List.length_singleton]
  exact h

theorem countIf_le (raised : Bool) {n : Nat} (h : n ≤ Config.countTop) : countIf raised n ≤ Config.countTop := by
  unfold countIf
  split
  · next hn => exact hn.2
  · exact h

theorem pushReport_length {ring : List Report} (r : Report) (h : ring.length ≤ Config.ringSize) :
    (pushReport ring r).length ≤ Config.ringSize := by
  unfold pushReport
  rw [List.length_append, List.length_singleton]
  unfold Config.ringSize at *
  split
  · rw [List.length_tail]
    omega
  · omega

theorem Monitor.start_fits : Monitor.start.Fits :=
  ⟨Nat.zero_le _, nofun, fun k => by cases k <;> exact Nat.zero_le _, Nat.zero_le _⟩

namespace Monitor.Fits

variable {m : Monitor} (h : m.Fits)

include h

theorem raise (c : Condition) : (m.raise c).Fits :=
  { h with counts := fun k => (Counts.get_add m.counts c k) ▸ countIf_le _ (h.counts k) }

theorem trap (n : BitVec 32) (x y : Nat) (ch : Channel) (r : ChainResult) : (m.trap n x y ch r).Fits :=
  { h with trapped := countUp_le h.trapped }

theorem channel (n : BitVec 32) (k : Marks) (x y : Nat) (ch : Channel) (r : ChainResult) :
    (m.channel n k x y ch r).Fits := by
  have hraised : ∀ (l : List Condition) (m : Monitor), m.Fits → (l.foldl Monitor.raise m).Fits := by
    intro l
    induction l with
    | nil => exact fun _ h => h
    | cons c l ih => exact fun m h => ih _ (h.raise c)
  unfold Monitor.channel
  dsimp only
  split
  · exact (hraised _ _ h).trap n x y ch r
  · exact hraised _ _ h

theorem sign (v : Window) (x y r g b : Nat) : (m.sign v x y r g b).Fits := by
  unfold Monitor.sign
  split
  · exact h
  · next a ha =>
    split
    · exact { h with pixels := by rintro _ ⟨⟩; exact countUp_le (h.pixels a ha) }
    · exact h

theorem frameStart : m.frameStart.Fits :=
  { h with
    pixels := by rintro _ ⟨⟩; exact Nat.zero_le _
    counts := fun k => by cases k <;> exact Nat.zero_le _
    trapped := Nat.zero_le _ }

/-- A report filed, and the counts then not kept (R48, R60). -/
theorem filed (r : Report) : { m with ring := pushReport m.ring r, counts := ⟨0, 0, 0, 0⟩, trapped := 0 : Monitor }.Fits :=
  { h with
    ring := pushReport_length r h.ring
    counts := fun k => by cases k <;> exact Nat.zero_le _
    trapped := Nat.zero_le _ }

end Monitor.Fits

/-! ### The error log and the scrub queue (R76, R78) -/

/-- The word that a log entry is about. -/
def LogEntry.place (e : LogEntry) : Bank × Nat := (e.bank, e.addr)

theorem LogEntry.about_iff (e : LogEntry) (bank : Bank) (a : Nat) : e.about bank a = true ↔ e.place = (bank, a) := by
  simp [LogEntry.about, LogEntry.place]

theorem LogEntry.distinct_iff (l : List LogEntry) : LogEntry.distinct l = true ↔ (l.map LogEntry.place).Nodup := by
  induction l with
  | nil => simp [LogEntry.distinct]
  | cons e l ih =>
    have habout : ∀ x : LogEntry, (!x.about e.bank e.addr) = true ↔ x.place ≠ e.place := fun x => by
      rw [Bool.not_eq_true', ← Bool.not_eq_true, LogEntry.about_iff]; rfl
    simp only [LogEntry.distinct, Bool.and_eq_true, List.all_eq_true, habout, ih, List.map_cons, List.nodup_cons,
      List.mem_map, not_exists, not_and]

/-- A log of at most sixteen entries about different words, with at most 255 occurrences each. -/
structure LogFits (l : List LogEntry) : Prop where
  length : l.length ≤ Config.logSize
  counts : ∀ e ∈ l, e.count ≤ 255
  distinct : (l.map LogEntry.place).Nodup

theorem LogFits.nil : LogFits [] := ⟨Nat.zero_le _, nofun, .nil⟩

/-- An entry about a further word is taken where there is room. -/
theorem LogFits.append {l : List LogEntry} (h : LogFits l) {e : LogEntry} (hroom : l.length < Config.logSize)
    (hcount : e.count ≤ 255) (hnew : ∀ x ∈ l, x.place ≠ e.place) : LogFits (l ++ [e]) where
  length := length_append_le hroom e
  counts := by simpa [or_imp, forall_and] using ⟨h.counts, hcount⟩
  distinct := by simpa [List.nodup_append] using ⟨h.distinct, hnew⟩

/-- The entry dropped makes room for one; the others stay in order. -/
theorem dropOldestCorrected_some {l rest : List LogEntry} (h : dropOldestCorrected l = some rest) :
    rest.Sublist l ∧ rest.length < l.length := by
  induction l generalizing rest with
  | nil => cases h
  | cons e l ih =>
    unfold dropOldestCorrected at h
    split at h
    · cases h
      exact ⟨List.sublist_cons_self e l, Nat.lt_succ_self _⟩
    · split at h
      · cases h
      · next rest' hrest =>
        cases h
        exact ⟨(ih hrest).1.cons_cons e, Nat.succ_lt_succ (ih hrest).2⟩

theorem LogFits.again {l : List LogEntry} (h : LogFits l) (p : LogEntry → Bool) (kind : ErrorKind) :
    LogFits (l.map fun e => if p e then e.again kind else e) where
  length := by simpa using h.length
  counts := by
    intro e he
    obtain ⟨x, hx, rfl⟩ := List.mem_map.mp he
    split
    · exact countUp_le (h.counts x hx)
    · exact h.counts x hx
  distinct := by
    have hplace : LogEntry.place ∘ (fun e => if p e then e.again kind else e) = LogEntry.place :=
      funext fun e => by simp only [Function.comp]; split <;> rfl
    rw [List.map_map, hplace]
    exact h.distinct

theorem LogFits.finding {l : List LogEntry} (h : LogFits l) (bank : Bank) (a : Nat) (kind : ErrorKind)
    (frame : BitVec 32) : LogFits (logFinding l bank a kind frame) := by
  unfold logFinding
  split
  · exact h.again _ kind
  · next hnew =>
    have hnew : ∀ x ∈ l, x.place ≠ (bank, a) := fun x hx hp =>
      hnew (List.any_eq_true.mpr ⟨x, hx, (x.about_iff bank a).mpr hp⟩)
    split
    · next hroom => exact h.append hroom (by decide : (1 : Nat) ≤ 255) hnew
    · split
      · exact h
      · split
        · exact h
        · next rest hrest =>
          obtain ⟨hsub, hlt⟩ := dropOldestCorrected_some hrest
          have hfits : LogFits rest := ⟨by have := h.length; omega, fun e he => h.counts e (hsub.subset he),
            h.distinct.sublist (hsub.map _)⟩
          exact hfits.append (Nat.lt_of_lt_of_le hlt h.length) (by decide : (1 : Nat) ≤ 255)
            fun x hx => hnew x (hsub.subset hx)

/-- The scrub queue and the error log within their capacities. -/
structure Store.Fits (st : Store) : Prop where
  scrub : st.scrub.length ≤ Config.scrubQueueSize
  log : LogFits st.log

theorem requestScrub_length {q : List ScrubRequest} (r : ScrubRequest) (h : q.length ≤ Config.scrubQueueSize) :
    (requestScrub q r).length ≤ Config.scrubQueueSize := by
  unfold requestScrub
  split
  · exact h
  · next hroom =>
    simp only [Bool.or_eq_true, decide_eq_true_eq, not_or] at hroom
    exact length_append_le (Nat.lt_of_not_le hroom.2) r

theorem Store.Fits.noteRead {st : Store} (h : st.Fits) (bank : Bank) (a : Nat) (n : BitVec 32) :
    (st.noteRead bank a n).Fits := by
  unfold Store.noteRead
  dsimp only
  split
  · exact h
  · exact ⟨requestScrub_length _ h.scrub, h.log.finding ..⟩
  · exact ⟨h.scrub, h.log.finding ..⟩

/-! ### The whole part -/

/-- The reply queue and the replies that wait, with the command in hand (R147, R152, R153, R163). The lane sends only what
there is, and, once settled, is IDLE only at an empty queue; a transmission's end settles it last. -/
structure ReturnPath.QueueFits (settled : Prop) (r : ReturnPath) (inHand : Option Job) : Prop where
  room : r.queue.length ≤ Config.replyQueueSize
  full : r.waiting ≠ [] → r.queue.length = Config.replyQueueSize
  one : ∀ w, r.waiting.countP (fun x => x.poster == w) ≤ 1
  hand : inHand ≠ none → ∀ x ∈ r.waiting, x.poster ≠ .engine
  sending : r.queue = [] → r.lane = .idle
  idle : settled → r.lane = .idle → r.queue = []

/-- A block other than the engine has more to post only while one of its replies waits (R153; log 24). -/
def ReturnPath.Covered (r : ReturnPath) : Prop :=
  ∀ x ∈ r.later, x.poster ≠ .engine ∧ ∃ w ∈ r.waiting, w.poster = x.poster

/-- The invariant, block by block. -/
structure State.Fits (settled : Prop) (s : State) : Prop where
  queue : s.ret.QueueFits settled s.eng.inHand
  covered : s.ret.Covered
  commands : s.eng.queue.length ≤ Config.commandQueueSize
  anchors : s.eng.anchors.length = 7
  store : s.store.Fits
  mon : s.mon.Fits

theorem bounded_iff (s : State) : s.bounded = true ↔ s.Fits True := by
  have hcounts : (∀ k, s.mon.counts.get k ≤ Config.countTop) ↔ s.mon.counts.nodeEcc ≤ Config.countTop ∧
      s.mon.counts.clipLow ≤ Config.countTop ∧ s.mon.counts.clipHigh ≤ Config.countTop ∧
      s.mon.counts.limit ≤ Config.countTop :=
    ⟨fun h => ⟨h .nodeEcc, h .clipLow, h .clipHigh, h .limit⟩, fun ⟨h1, h2, h3, h4⟩ k => by cases k <;> assumption⟩
  have hone : (∀ w, s.ret.waiting.countP (fun x => x.poster == w) ≤ 1) ↔
      ∀ w ∈ [Poster.store, .key, .life, .engine], s.ret.waiting.countP (fun x => x.poster == w) ≤ 1 :=
    ⟨fun h w _ => h w, fun h w => h w (by cases w <;> decide)⟩
  have hlane : ((s.ret.lane == .idle) == s.ret.queue.isEmpty) = true ↔
      (s.ret.queue = [] → s.ret.lane = .idle) ∧ (True → s.ret.lane = .idle → s.ret.queue = []) := by
    rw [beq_iff_eq, Bool.eq_iff_iff, beq_iff_eq, List.isEmpty_iff]
    exact ⟨fun h => ⟨h.mpr, fun _ => h.mp⟩, fun ⟨hsending, hidle⟩ => ⟨hidle trivial, hsending⟩⟩
  have hpixels : s.mon.acc.all (fun a => decide (a.pixels ≤ Config.pixelCountTop)) = true ↔
      ∀ a, s.mon.acc = some a → a.pixels ≤ Config.pixelCountTop := by
    simp only [Option.all_eq_true, decide_eq_true_eq]
  have hfull : (s.ret.waiting.isEmpty || s.ret.queue.length == Config.replyQueueSize) = true ↔
      (s.ret.waiting ≠ [] → s.ret.queue.length = Config.replyQueueSize) := by
    rw [Bool.or_eq_true, List.isEmpty_iff, beq_iff_eq, Decidable.or_iff_not_imp_left]
  have hhand : (s.eng.inHand.isNone || s.ret.waiting.all fun x => x.poster != .engine) = true ↔
      (s.eng.inHand ≠ none → ∀ x ∈ s.ret.waiting, x.poster ≠ .engine) := by
    simp only [Bool.or_eq_true, Option.isNone_iff_eq_none, List.all_eq_true, bne_iff_ne]
    exact Decidable.or_iff_not_imp_left
  have hcovered : s.ret.later.all (fun x => x.poster != .engine && s.ret.waiting.any fun w => w.poster == x.poster) =
      true ↔ s.ret.Covered := by
    simp [ReturnPath.Covered]
  simp only [State.bounded, Bool.and_eq_true, decide_eq_true_eq, hlane, hpixels, hfull, hhand, hcovered,
    LogEntry.distinct_iff, List.all_eq_true, ← hone, beq_iff_eq, and_assoc]
  constructor
  · rintro ⟨hcommands, hroom, hfull, hone, hhand, hcovered, hsending, hidle, hanchors, hlog, hpixels, hscrub, hlength,
      hdistinct, hring, hecc, hlow, hhigh, hlimit, htrapped⟩
    exact ⟨⟨hroom, hfull, hone, hhand, hsending, hidle⟩, hcovered, hcommands, hanchors,
      ⟨hscrub, hlength, hlog, hdistinct⟩, ⟨hring, hpixels, hcounts.mpr ⟨hecc, hlow, hhigh, hlimit⟩, htrapped⟩⟩
  · rintro ⟨⟨hroom, hfull, hone, hhand, hsending, hidle⟩, hcovered, hcommands, hanchors,
      ⟨hscrub, hlength, hlog, hdistinct⟩, ⟨hring, hpixels, hk, htrapped⟩⟩
    obtain ⟨hecc, hlow, hhigh, hlimit⟩ := hcounts.mp hk
    exact ⟨hcommands, hroom, hfull, hone, hhand, hcovered, hsending, hidle, hanchors, hlog, hpixels, hscrub, hlength,
      hdistinct, hring, hecc, hlow, hhigh, hlimit, htrapped⟩

end Sys2Proof.Machine
end

section
/-! SUPPORT. What the shared operations do to the invariant of capacities: replies offered, posted and admitted, packets
taken, checked reads, pixels and frames. -/

namespace Sys2Proof.Machine

/-- What the invariant reads. -/
def State.contents (s : State) :
    ReturnPath × Option Job × List Packet × List Anchor × List LogEntry × List ScrubRequest × Monitor :=
  (s.ret, s.eng.inHand, s.eng.queue, s.eng.anchors, s.store.log, s.store.scrub, s.mon)

variable {s t u : State} {settled : Prop}

theorem State.Fits.congr (h : s.Fits settled) (hc : t.contents = s.contents) : t.Fits settled := by
  simp only [State.contents, Prod.mk.injEq] at hc
  obtain ⟨hret, hhand, hqueue, hanchors, hlog, hscrub, hmon⟩ := hc
  refine ⟨?_, ?_, ?_, ?_, ⟨?_, ?_⟩, ?_⟩
  · rw [hret, hhand]; exact h.queue
  · rw [hret]; exact h.covered
  · rw [hqueue]; exact h.commands
  · rw [hanchors]; exact h.anchors
  · rw [hscrub]; exact h.store.scrub
  · rw [hlog]; exact h.store.log
  · rw [hmon]; exact h.mon

/-! ### Replies (R151 to R153) -/

theorem hasRoom_iff : hasRoom s = true ↔ s.ret.queue.length < Config.replyQueueSize ∧ s.ret.waiting = [] := by
  simp [hasRoom]

/-- A reply that finds room is the newest of the queue, and the lane is not IDLE. -/
theorem offer_ret_room (w : Poster) (r : Reply) (h : hasRoom s = true) :
    ∃ lane, lane ≠ .idle ∧ (offer w r s).ret = { s.ret with queue := s.ret.queue ++ [r], lane := lane } := by
  unfold offer
  rw [if_pos h]
  cases hl : s.ret.lane with
  | idle =>
    refine ⟨.sending (credits s), nofun, ?_⟩
    cases s.ret.queue <;> simp [startLane, hl, credits]
  | sending n => exact ⟨.sending n, nofun, by simp [startLane, hl]⟩

/-- A reply that finds no room waits behind the others. -/
theorem offer_ret_full (w : Poster) (r : Reply) (h : hasRoom s = false) :
    (offer w r s).ret = { s.ret with waiting := s.ret.waiting ++ [⟨w, s.eng.restarting, r⟩] } := by
  simp [offer, h]

@[simp] theorem offer_later (w : Poster) (r : Reply) : (offer w r s).ret.later = s.ret.later := by
  cases h : hasRoom s with
  | true =>
    obtain ⟨lane, -, hr⟩ := offer_ret_room w r h
    rw [hr]
  | false => rw [offer_ret_full w r h]

theorem mem_offer_waiting (w : Poster) (r : Reply) {x : Waiter} (hx : x ∈ s.ret.waiting) :
    x ∈ (offer w r s).ret.waiting := by
  cases h : hasRoom s with
  | true =>
    obtain ⟨lane, -, hr⟩ := offer_ret_room w r h
    rwa [hr]
  | false =>
    rw [offer_ret_full w r h]
    exact List.mem_append_left _ hx

/-- A block with no reply waiting offers one; the engine does so with no command in hand. -/
theorem offer_queueFits (w : Poster) (r : Reply) (h : s.ret.QueueFits settled s.eng.inHand)
    (hw : ∀ x ∈ s.ret.waiting, x.poster ≠ w) (hhand : w = .engine → s.eng.inHand = none) :
    (offer w r s).ret.QueueFits settled (offer w r s).eng.inHand := by
  have heng : (offer w r s).eng = s.eng := by simp
  rw [heng]
  cases hr : hasRoom s with
  | true =>
    obtain ⟨hroom, hnone⟩ := hasRoom_iff.mp hr
    obtain ⟨lane, hlane, hret⟩ := offer_ret_room w r hr
    rw [hret]
    exact ⟨length_append_le hroom r, fun hne => absurd hnone hne, h.one, h.hand, by simp, fun _ hidle => absurd hidle hlane⟩
  | false =>
    rw [offer_ret_full w r hr]
    refine ⟨h.room, fun _ => ?_, fun v => ?_, fun hne x hx => ?_, h.sending, h.idle⟩
    · by_cases hnone : s.ret.waiting = []
      · refine Nat.le_antisymm h.room (Nat.le_of_not_lt fun hlt => ?_)
        rw [hasRoom_iff.mpr ⟨hlt, hnone⟩] at hr
        cases hr
      · exact h.full hnone
    · rw [List.countP_append]
      by_cases hv : w = v
      · have hzero : s.ret.waiting.countP (fun x => x.poster == v) = 0 :=
          List.countP_eq_zero.mpr fun x hx => by simpa [← hv] using hw x hx
        simp [hzero, hv]
      · simpa [hv] using h.one v
    · obtain hx | hx := List.mem_append.mp hx
      · exact h.hand hne x hx
      · rw [List.mem_singleton.mp hx]
        exact fun he => hne (hhand he)

/-- A post keeps the invariant where the block has no reply waiting. -/
theorem State.Fits.post (h : s.Fits settled) (w : Poster) (tag code : Byte) (c : Completion) (l : List Word)
    (hw : ∀ x ∈ s.ret.waiting, x.poster ≠ w) (hhand : w = .engine → s.eng.inHand = none) :
    (post w tag code c l s).Fits settled where
  queue := offer_queueFits w _ h.queue hw hhand
  covered := fun x hx => by
    obtain ⟨hx, v, hv, hvx⟩ := h.covered x (by simpa [Machine.post] using hx)
    exact ⟨hx, v, mem_offer_waiting w _ hv, hvx⟩
  commands := by simpa using h.commands
  anchors := by simpa using h.anchors
  store := by simpa using h.store
  mon := by simpa using h.mon

/-- A block of deferred work posts, or keeps what it has to post until its reply that waits is admitted (R153; log 24). -/
theorem State.Fits.postDeferred (h : s.Fits settled) {w : Poster} (hw : w ≠ .engine) (tag code : Byte) (c : Completion)
    (l : List Word) : (postDeferred w tag code c l s).Fits settled := by
  unfold Machine.postDeferred
  split
  · next hfree =>
    simp only [blockFree, Bool.and_eq_true, List.all_eq_true, bne_iff_ne] at hfree
    exact h.post w tag code c l hfree.1 fun he => absurd he hw
  · next hbusy =>
    have hwaits : ∃ v ∈ s.ret.waiting, v.poster = w := by
      rw [Bool.not_eq_true, blockFree, Bool.and_eq_false_iff, List.all_eq_false, List.all_eq_false] at hbusy
      obtain ⟨v, hv, hvw⟩ | ⟨x, hx, hxw⟩ := hbusy
      · exact ⟨v, hv, by simpa using hvw⟩
      · have hxw : x.poster = w := by simpa using hxw
        exact hxw ▸ (h.covered x hx).2
    refine ⟨⟨h.queue.room, h.queue.full, h.queue.one, h.queue.hand, h.queue.sending, h.queue.idle⟩, fun x hx => ?_,
      h.commands, h.anchors, h.store, h.mon⟩
    obtain hx | hx := List.mem_append.mp hx
    · exact h.covered x hx
    · rw [List.mem_singleton.mp hx]
      exact ⟨hw, hwaits⟩

/-- A command in hand completes, or one is taken in hand while no reply of the engine waits. -/
theorem State.Fits.withInHand (h : s.Fits settled) (j : Option Job)
    (hfree : j ≠ none → ∀ x ∈ s.ret.waiting, x.poster ≠ .engine) :
    State.Fits settled { s with eng.inHand := j } :=
  ⟨⟨h.queue.room, h.queue.full, h.queue.one, hfree, h.queue.sending, h.queue.idle⟩, h.covered, h.commands, h.anchors,
    h.store, h.mon⟩

/-- A command in hand is completed with its reply. -/
theorem State.Fits.complete (h : s.Fits settled) (hhand : s.eng.inHand ≠ none) (tag code : Byte) (l : List Word) :
    (Machine.post .engine tag code .done l { s with eng.inHand := none }).Fits settled :=
  (h.withInHand none fun hne => absurd rfl hne).post _ _ _ _ _ (h.queue.hand hhand) fun _ => rfl

theorem State.Fits.completeAbort (h : s.Fits settled) : (completeAbort s).Fits settled := by
  obtain ⟨tag, hhand, -, -, heq⟩ | ⟨heq, -⟩ := completeAbort_spec s <;> rw [heq]
  · exact h.complete (by simp [hhand]) tag 0x81 []
  · exact h

theorem State.Fits.postRestart (h : s.Fits settled) : (postRestart s).Fits settled := by
  unfold Machine.postRestart
  split
  · exact h
  · split
    · exact .postDeferred (h.congr (by rfl)) (by decide) _ _ _ _
    · exact h

/-- The lane's start settles the lane. -/
theorem State.Fits.startLane (h : s.Fits settled) : (startLane s).Fits True := by
  unfold Machine.startLane
  split
  · next hq =>
    exact ⟨⟨h.queue.room, h.queue.full, h.queue.one, h.queue.hand, fun he => by simp [hq] at he,
      fun _ hidle => by cases hidle⟩, h.covered, h.commands, h.anchors, h.store, h.mon⟩
  · next hnot =>
    refine ⟨⟨h.queue.room, h.queue.full, h.queue.one, h.queue.hand, h.queue.sending, fun _ hidle => ?_⟩, h.covered,
      h.commands, h.anchors, h.store, h.mon⟩
    cases hq : s.ret.queue with
    | nil => rfl
    | cons r rest => exact absurd hq (hnot r rest hidle)

/-! ### Admission (R153) -/

/-- The first member that a test picks, and the others: what `takeWaiter` and `takePost` do with a block's replies. -/
def takeFirst {α : Type} (p : α → Bool) : List α → Option (α × List α)
  | [] => none
  | x :: l => if p x then some (x, l) else (takeFirst p l).map fun found => (found.1, x :: found.2)

theorem takeFirst_some {α : Type} {p : α → Bool} {l rest : List α} {v : α} (h : takeFirst p l = some (v, rest)) :
    p v = true ∧ l.Perm (v :: rest) := by
  induction l generalizing rest with
  | nil => cases h
  | cons x l ih =>
    unfold takeFirst at h
    split at h
    · next hx =>
      cases h
      exact ⟨hx, .refl _⟩
    · obtain ⟨⟨y, rest'⟩, hy, heq⟩ := Option.map_eq_some_iff.mp h
      cases heq
      obtain ⟨hp, hperm⟩ := ih hy
      exact ⟨hp, (hperm.cons x).trans (.swap ..)⟩

theorem takeFirst_none {α : Type} {p : α → Bool} {l : List α} (h : takeFirst p l = none) : ∀ x ∈ l, p x = false := by
  induction l with
  | nil => simp
  | cons x l ih =>
    unfold takeFirst at h
    split at h
    · cases h
    · next hx => exact List.forall_mem_cons.mpr ⟨by simpa using hx, ih (Option.map_eq_none_iff.mp h)⟩

theorem takeWaiter_eq (w : Poster) (l : List Waiter) : takeWaiter w l = takeFirst (fun x => x.poster == w) l := by
  induction l with
  | nil => rfl
  | cons x l ih =>
    simp only [takeWaiter, takeFirst, ih, beq_iff_eq]
    cases takeFirst (fun x : Waiter => x.poster == w) l <;> rfl

theorem takePost_eq (w : Poster) (l : List Post) : takePost w l = takeFirst (fun x => x.poster == w) l := by
  induction l with
  | nil => rfl
  | cons x l ih =>
    simp only [takePost, takeFirst, ih, beq_iff_eq]
    cases takeFirst (fun x : Post => x.poster == w) l <;> rfl

theorem takeWaiter_none {w : Poster} {l : List Waiter} (h : takeWaiter w l = none) {x : Waiter} (hx : x ∈ l) :
    x.poster ≠ w := by
  rw [takeWaiter_eq] at h
  simpa using takeFirst_none h x hx

/-- What the arbiter admits is one of the replies that wait. -/
theorem nextWaiter_some {l rest : List Waiter} {v : Waiter} (h : nextWaiter l = some (v, rest)) :
    l.Perm (v :: rest) := by
  simp only [nextWaiter, takeWaiter_eq] at h
  split at h
  · next hx => cases h; exact (takeFirst_some hx).2
  · next hx => cases h; exact (takeFirst_some hx).2
  · next hx => cases h; exact (takeFirst_some hx).2
  · exact (takeFirst_some h).2

/-- The arbiter admits none only where none waits. -/
theorem nextWaiter_none {l : List Waiter} (h : nextWaiter l = none) : l = [] := by
  refine List.eq_nil_iff_forall_not_mem.mpr fun x hx => ?_
  unfold nextWaiter at h
  split at h
  · cases h
  · cases h
  · cases h
  · next hstore hkey hlife =>
    cases hp : x.poster with
    | store => exact takeWaiter_none hstore hx hp
    | key => exact takeWaiter_none hkey hx hp
    | life => exact takeWaiter_none hlife hx hp
    | engine => exact takeWaiter_none h hx hp

/-- A block whose reply has been admitted to the last entry posts its next, which waits (R153; log 24). -/
theorem postNext_fits {w : Poster} (hqueue : s.ret.QueueFits settled s.eng.inHand)
    (hfull : s.ret.queue.length = Config.replyQueueSize) (hw : ∀ x ∈ s.ret.waiting, x.poster ≠ w)
    (hcovered : ∀ x ∈ s.ret.later, x.poster ≠ .engine ∧ (x.poster = w ∨ ∃ v ∈ s.ret.waiting, v.poster = x.poster))
    (hcommands : s.eng.queue.length ≤ Config.commandQueueSize) (hanchors : s.eng.anchors.length = 7)
    (hstore : s.store.Fits) (hmon : s.mon.Fits) : (postNext w s).Fits settled := by
  unfold postNext
  rw [takePost_eq]
  cases hp : takeFirst (fun x : Post => x.poster == w) s.ret.later with
  | none =>
    refine ⟨hqueue, fun x hx => ⟨(hcovered x hx).1, ?_⟩, hcommands, hanchors, hstore, hmon⟩
    exact (hcovered x hx).2.resolve_left (by simpa using takeFirst_none hp x hx)
  | some found =>
    obtain ⟨x, rest⟩ := found
    obtain ⟨hx, hperm⟩ := takeFirst_some hp
    rw [beq_iff_eq] at hx
    have hne : w ≠ .engine := hx ▸ (hcovered x (hperm.mem_iff.mpr List.mem_cons_self)).1
    have hposted : (post w x.tag x.code x.completion x.payload { s with ret.later := rest }).Fits settled := by
      refine ⟨?_, ?_, by simpa using hcommands, by simpa using hanchors, by simpa using hstore, by simpa using hmon⟩
      · exact offer_queueFits w _ ⟨hqueue.room, hqueue.full, hqueue.one, hqueue.hand, hqueue.sending, hqueue.idle⟩ hw
          fun he => absurd he hne
      · unfold post
        rw [offer_ret_full w _ (by simp [hasRoom, hfull])]
        intro y hy
        obtain ⟨hy', hyw | ⟨z, hz, hzy⟩⟩ := hcovered y (hperm.mem_iff.mpr (List.mem_cons_of_mem x hy))
        · exact ⟨hy', _, List.mem_append_right _ (List.mem_singleton_self _), hyw.symm⟩
        · exact ⟨hy', z, List.mem_append_left _ hz, hzy⟩
    dsimp only
    split
    · exact hposted.completeAbort
    · exact hposted

/-- The oldest reply has left, and its entry goes to the waiting reply of the highest rank; the lane has still to start. -/
theorem State.Fits.admitWaiter (h : s.Fits True) {r : Reply} {queue : List Reply} (hq : s.ret.queue = r :: queue) :
    (admitWaiter { s with ret := { s.ret with queue := queue, lane := .idle } }).Fits False := by
  have hlength : s.ret.queue.length = queue.length + 1 := by rw [hq]; rfl
  unfold Machine.admitWaiter
  dsimp only
  split
  · next hnone =>
    have hwaiting := nextWaiter_none hnone
    have := h.queue.room
    exact ⟨⟨by dsimp only; omega, fun hne => absurd hwaiting hne, h.queue.one, h.queue.hand, fun _ => rfl, False.elim⟩,
      h.covered, h.commands, h.anchors, h.store, h.mon⟩
  · next w rest hsome =>
    have hperm := nextWaiter_some hsome
    have hfull : queue.length + 1 = Config.replyQueueSize :=
      hlength ▸ h.queue.full fun hnil => by simp [hnil] at hperm
    have hone : ∀ v, (w :: rest).countP (fun x => x.poster == v) ≤ 1 := fun v => hperm.countP_eq _ ▸ h.queue.one v
    rw [if_pos (by omega)]
    refine postNext_fits ⟨?_, fun _ => ?_, fun v => ?_, fun hne x hx => ?_, ?_, False.elim⟩ ?_ (fun x hx hxw => ?_)
      (fun x hx => ?_) h.commands h.anchors h.store h.mon
    · simpa using Nat.le_of_eq hfull
    · simpa using hfull
    · exact Nat.le_trans ((List.sublist_cons_self w rest).countP_le) (hone v)
    · exact h.queue.hand hne x (hperm.mem_iff.mpr (List.mem_cons_of_mem w hx))
    · simp
    · simpa using hfull
    · have hcount := hone w.poster
      have hpos : 0 < rest.countP (fun y => y.poster == w.poster) := List.countP_pos_iff.mpr ⟨x, hx, by simpa using hxw⟩
      rw [List.countP_cons_of_pos (by simp)] at hcount
      omega
    · obtain ⟨hne, v, hv, hvx⟩ := h.covered x hx
      refine ⟨hne, ?_⟩
      obtain rfl | hv := List.mem_cons.mp (hperm.mem_iff.mp hv)
      · exact .inl hvx.symm
      · exact .inr ⟨v, hv, hvx⟩

end Sys2Proof.Machine
end

section
/-! SUPPORT. Pixels, frames and service lines keep queues, logs and counts within their capacities. -/

namespace Sys2Proof.Machine

variable {s t : State} {settled : Prop}

/-! ### Parts replaced -/

theorem State.Fits.withMon (h : s.Fits settled) {m : Monitor} (hm : m.Fits) : State.Fits settled { s with mon := m } :=
  ⟨h.queue, h.covered, h.commands, h.anchors, h.store, hm⟩

theorem State.Fits.withStore (h : s.Fits settled) {st : Store} (hst : st.Fits) :
    State.Fits settled { s with store := st } :=
  ⟨h.queue, h.covered, h.commands, h.anchors, hst, h.mon⟩

theorem State.Fits.withAnchor (h : s.Fits settled) (i : Nat) (a : Anchor) :
    State.Fits settled { s with eng := s.eng.setAnchor i a } where
  queue := by simpa using h.queue
  covered := h.covered
  commands := by simpa using h.commands
  anchors := by
    unfold Engine.setAnchor
    split
    · exact h.anchors
    · simpa using h.anchors
  store := h.store
  mon := h.mon

/-- What an event makes of a state within the capacities is within them. -/
theorem event_fits {run : State → State} (ht : event run s = .next t) (h : s.Fits True) (hr : (run s).Fits True) :
    t.Fits True := event_keeps (P := State.Fits True) ht h hr

/-! ### Operations that the invariant does not see -/

@[simp] theorem enterHold_contents (c : HoldCause) (g : Option Byte) (r a : Option Nat) (s : State) :
    (enterHold c g r a s).contents = s.contents := by
  unfold enterHold
  split <;> rfl

@[simp] theorem setDec_contents (d : Decoder) (s : State) : (setDec d s).contents = s.contents := by
  simp [State.contents]

@[simp] theorem lineFault_contents (r : Nat) (d : Decoder) (s : State) : (lineFault r d s).contents = s.contents := by
  simp [lineFault]

@[simp] theorem cutLine_contents (f : RxFrame) (s : State) : (cutLine f s).contents = s.contents := by
  unfold cutLine
  split <;> simp

@[simp] theorem beginFetch_contents (s : State) : (beginFetch s).contents = s.contents := by simp [State.contents]

@[simp] theorem beginBand_contents (x y : Nat) (s : State) : (beginBand x y s).contents = s.contents := by
  simp [State.contents]

@[simp] theorem commandWrite_contents (bank : Bank) (a : Nat) (w : Word) (s : State) :
    (commandWrite bank a w s).contents = s.contents := by
  simp [State.contents, commandWrite]

/-! ### Reads and pixels -/

theorem State.Fits.noteRead (h : s.Fits settled) (bank : Bank) (a : Nat) : (noteRead bank a s).Fits settled :=
  h.withStore (h.store.noteRead ..)

theorem State.Fits.fetchRead (h : s.Fits settled) : (fetchRead s).Fits settled := by
  unfold Machine.fetchRead
  split
  · split
    · exact h
    · exact (h.noteRead _ _).congr (beginFetch_contents _)
  · exact h

theorem State.Fits.fetchFor (h : s.Fits settled) (p : InPixel) (n : Nat) : (fetchFor p n s).Fits settled := by
  induction n generalizing s with
  | zero => exact h
  | succ n ih =>
    unfold Machine.fetchFor
    split
    · exact h
    · split
      · exact ih h.fetchRead
      · exact h

theorem State.Fits.sendPixel (h : s.Fits settled) (x y r g b : Nat) : (sendPixel x y r g b s).Fits settled :=
  (h.withMon (h.mon.sign ..)).congr rfl

theorem State.Fits.processPixel (h : s.Fits settled) (p : InPixel) : (processPixel p s).Fits settled := by
  unfold Machine.processPixel
  split
  · exact h.sendPixel ..
  · exact (h.withMon (((h.mon.channel ..).channel ..).channel ..)).sendPixel ..

theorem State.Fits.drainList (h : s.Fits settled) (l : List InPixel) : (drainList l s).Fits settled := by
  induction l generalizing s with
  | nil => exact h
  | cons p l ih =>
    have hfetched := (h.congr (beginBand_contents p.x p.y s)).fetchFor p 20000
    exact ih (State.Fits.processPixel (hfetched.congr (by rfl)) p)

/-! ### Frame ends and starts -/

theorem State.Fits.outputFrameEnd (h : s.Fits settled) (z : Option Size) (n : Nat) :
    (outputFrameEnd z n s).Fits settled := (h.withMon (h.mon.filed _)).congr rfl

theorem State.Fits.endWhenSent (h : s.Fits settled) : (endWhenSent s).Fits settled := by
  unfold Machine.endWhenSent
  split
  · exact h.outputFrameEnd ..
  · exact h

theorem State.Fits.drain (h : s.Fits settled) : (drain s).Fits settled := (h.drainList _).endWhenSent

theorem State.Fits.cutFrame (h : s.Fits settled) : (cutFrame s).Fits settled := by
  unfold Machine.cutFrame
  split
  · exact h
  · exact .endWhenSent (h.congr (cutLine_contents _ s))

theorem State.Fits.cutLate (h : s.Fits settled) : (cutLate s).Fits settled := h.congr (by simp [State.contents])

theorem State.Fits.endFreeRun (h : s.Fits settled) : (endFreeRun s).Fits settled := by
  unfold Machine.endFreeRun
  split
  · exact (h.outputFrameEnd none 0).congr rfl
  · exact h

theorem State.Fits.completeActivate (h : s.Fits settled) : (completeActivate s).Fits settled := by
  unfold Machine.completeActivate
  dsimp only
  split
  · split
    · exact h.congr rfl
    · exact .postDeferred (h.congr (by rfl)) (by decide) _ _ _ _
  · exact h

theorem State.Fits.outputFrameStart (h : s.Fits settled) (free : Bool) : (outputFrameStart free s).Fits settled := by
  rw [outputFrameStart_eq]
  have hactivated : (Machine.completeActivate s.numbered).Fits settled := .completeActivate (h.congr (by rfl))
  exact (hactivated.withMon hactivated.mon.frameStart).congr rfl

/-! ### Service lines -/

theorem State.Fits.offerPacket (h : s.Fits settled) (p : Packet) (row : Nat) : (offerPacket p row s).Fits settled := by
  unfold Machine.offerPacket
  split
  · next hroom => exact ⟨h.queue, h.covered, length_append_le hroom p, h.anchors, h.store, h.mon⟩
  · exact h.congr (enterHold_contents ..)

theorem decideHeader_contents (row : Nat) (l : List Byte) (s : State) :
    (decideHeader row l s).contents = s.contents := by
  unfold decideHeader
  dsimp only
  repeat' split
  all_goals simp

theorem decideMarker_contents (f : RxFrame) (l : List Byte) (s : State) :
    (decideMarker f l s).contents = s.contents := by
  simp [State.contents]

theorem State.Fits.decidePacket (h : s.Fits settled) (row count consumed : Nat) (l : List Byte) :
    (decidePacket row count consumed l s).Fits settled := by
  unfold Machine.decidePacket
  dsimp only
  have hset : ∀ d : Decoder, (setDec d s).Fits settled := fun d => h.congr (setDec_contents d s)
  have hfault : ∀ d : Decoder, (lineFault row d s).Fits settled := fun d => h.congr (lineFault_contents row d s)
  split
  · exact hfault _
  · split
    · exact hset _
    · split
      · exact hfault _
      · split
        · exact hset _
        · split
          · exact hfault _
          · exact (hset _).offerPacket _ _

theorem State.Fits.decodeByte (h : s.Fits settled) (x : Byte) : (decodeByte s x).Fits settled := by
  unfold Machine.decodeByte
  split
  · exact h
  · dsimp only
    split
    · split
      · exact h.congr (setDec_contents ..)
      · exact h.congr (decideMarker_contents ..)
    · split
      · exact h.congr (setDec_contents ..)
      · exact h.congr (decideHeader_contents ..)
    · exact h.decidePacket ..
    · exact h
    · exact h

theorem State.Fits.foldl_decodeByte (h : s.Fits settled) (l : List Byte) : (l.foldl Machine.decodeByte s).Fits settled := by
  induction l generalizing s with
  | nil => exact h
  | cons x l ih => exact ih (h.decodeByte x)

/-- The events of the frames keep the capacities. -/
theorem ofFrames_fits {c : Instr} (hs : s.Fits True) (h : exec c s = .next t) (hc : c.ofFrames = true) :
    t.Fits True := by
  cases c with
  | inputFrameStart now =>
    simp only [exec, execInputFrameStart] at h
    have hended := hs.cutFrame.cutLate.drain.endFreeRun
    exact event_fits h hs ((State.Fits.outputFrameStart (hended.congr (by rfl)) false).congr rfl)
  | rowEnd =>
    simp only [exec, execRowEnd] at h
    refine event_fits h hs ?_
    split
    · exact hs
    · split
      · exact hs.congr (cutLine_contents _ s)
      · exact hs
  | inputFrameEnd =>
    simp only [exec, execInputFrameEnd] at h
    refine event_fits h hs ?_
    split
    · exact hs
    · split
      · exact hs.cutFrame
      · exact .endWhenSent (hs.congr (by rfl))
  | linkLoss => exact event_fits h hs hs.cutFrame
  | pixelReceived r g b =>
    obtain rfl | ⟨f, _, rfl⟩ := pixelReceived_next h
    · exact hs
    · exact .foldl_decodeByte (hs.congr (by rfl)) _
  | pixelProcess =>
    simp only [exec, execPixelProcess] at h
    refine event_fits h hs ?_
    split
    · exact hs
    · next p rest _ =>
      have hband : (beginBand p.x p.y s).Fits True := hs.congr (beginBand_contents ..)
      split
      · exact .endWhenSent (.processPixel (hband.congr (by rfl)) p)
      · exact hband
  | deadlineExpiry =>
    simp only [exec, execDeadlineExpiry] at h
    refine event_fits h hs ?_
    split
    · exact hs
    · exact .outputFrameStart (hs.cutFrame.drain.congr (by rfl)) true
  | freeRunFrameEnd =>
    simp only [exec, execFreeRunFrameEnd] at h
    refine event_fits h hs ?_
    split
    · exact (hs.outputFrameEnd none 0).outputFrameStart true
    · exact hs
  | freeRunPixelSent =>
    simp only [exec, execFreeRunPixelSent] at h
    refine event_fits h hs ?_
    split
    · split
      · exact .sendPixel (hs.congr (by rfl)) ..
      · exact hs
    · exact hs
  | _ => cases hc

end Sys2Proof.Machine
end

section
/-! SUPPORT. Station commands and the background work keep queues, logs and counts within their capacities, and with the
frames every step does. -/

namespace Sys2Proof.Machine

variable {s t : State} {settled : Prop}

/-! ### Packets taken and answered (R147, R148) -/

/-- A state in which the engine runs a packet: within the capacities, with no command in hand and no reply of the
engine's waiting. -/
structure State.Ready (s : State) : Prop where
  fits : s.Fits True
  hand : s.eng.inHand = none
  free : ∀ x ∈ s.ret.waiting, x.poster ≠ .engine

/-- A step of a station command keeps the capacities if what it does once taken does. -/
theorem take_fits {p : Packet} {run : State → State} (h : take p run s = .next t) (hs : s.Fits True)
    (hr : ∀ u : State, u.Ready → (run u).Fits True) : t.Fits True := by
  obtain ⟨h', -⟩ | ⟨h', -, hready, -⟩ | ⟨h', -⟩ := take_spec s p run <;> rw [h'] at h <;> cases h
  · simp only [engineReady, Bool.and_eq_true, Option.isNone_iff_eq_none, List.all_eq_true, bne_iff_ne] at hready
    obtain ⟨⟨⟨-, hhand⟩, -⟩, hfree⟩ := hready
    have hqueue : s.eng.queue.tail.length ≤ Config.commandQueueSize := by
      have := hs.commands
      rw [List.length_tail]
      omega
    exact hr (dequeue s) ⟨⟨hs.queue, hs.covered, hqueue, hs.anchors, hs.store, hs.mon⟩, hhand, hfree⟩
  · exact hs

namespace State.Ready

variable (h : s.Ready)

include h

theorem congr (hc : t.contents = s.contents) : t.Ready := by
  have hc' := hc
  simp only [State.contents, Prod.mk.injEq] at hc'
  obtain ⟨hret, hhand, -⟩ := hc'
  exact ⟨h.fits.congr hc, hhand ▸ h.hand, hret ▸ h.free⟩

theorem withMon {m : Monitor} (hm : m.Fits) : State.Ready { s with mon := m } := ⟨h.fits.withMon hm, h.hand, h.free⟩

theorem withStore {st : Store} (hst : st.Fits) : State.Ready { s with store := st } :=
  ⟨h.fits.withStore hst, h.hand, h.free⟩

theorem withAnchor (i : Nat) (a : Anchor) : State.Ready { s with eng := s.eng.setAnchor i a } :=
  ⟨h.fits.withAnchor i a, by simpa using h.hand, h.free⟩

/-- An immediate reply enters or waits, as no other of the engine's does. -/
theorem done (p : Packet) (l : List Word) : (done p l s).Fits True := h.fits.post _ _ _ _ _ h.free fun _ => h.hand

theorem refuse (p : Packet) (r : Reason) (l : List Word) : (refuse p r l s).Fits True :=
  h.fits.post _ _ _ _ _ h.free fun _ => h.hand

theorem refuseWrite (p : Packet) (r : Reason) (a : Option Nat) : (refuseWrite p r a s).Fits True := by
  unfold Machine.refuseWrite
  split
  · exact h.refuse ..
  · exact (h.congr (enterHold_contents ..)).refuse ..

/-- A command is taken in hand. -/
theorem withInHand (j : Job) : State.Fits True { s with eng.inHand := some j } :=
  h.fits.withInHand _ fun _ => h.free

theorem tested {p : Packet} {g : Gate} {tests : List (Bool × Reason)} {run : State → State}
    (hr : (run s).Fits True) : (tested p g tests run s).Fits True := by
  obtain ⟨r, -, heq⟩ | ⟨-, heq⟩ := tested_spec s p g tests run <;> rw [heq]
  · exact h.refuse ..
  · exact hr

theorem testedRun {p : Packet} {role : Role} {n : Nat} {run : Bank → Nat → State → State}
    (hr : ∀ bank ea, (run bank ea s).Fits True) : (testedRun p role n run s).Fits True := by
  unfold Machine.testedRun
  dsimp only
  split
  · exact h.refuseWrite ..
  · split
    · exact h.refuseWrite ..
    · exact hr _ _

end State.Ready

/-- A command that is tested and answers at once, in a state in which the engine is still free. -/
theorem take_tested_done_fits {p : Packet} {g : Gate} {tests : List (Bool × Reason)} {l : State → List Word}
    {f : State → State} (h : take p (tested p g tests fun u => done p (l u) (f u)) s = .next t) (hs : s.Fits True)
    (hf : ∀ u : State, u.Ready → (f u).Ready) : t.Fits True :=
  take_fits h hs fun u hu => hu.tested (run := fun u => done p (l u) (f u)) ((hf u hu).done p _)

/-! ### Commands with a body of their own -/

theorem anchorSet_fits {tag : Byte} {l : List Word} (hs : s.Fits True) (h : exec (.anchorSet tag l) s = .next t) :
    t.Fits True := by
  simp only [exec, execAnchorSet] at h
  refine take_fits h hs fun u hu => ?_
  repeat' split
  case h_3.isFalse.isFalse => exact (hu.withAnchor _ _).done _ _
  all_goals exact hu.refuse _ _ _

theorem nodeWrite_fits {tag : Byte} {l : List Word} (hs : s.Fits True) (h : exec (.nodeWrite tag l) s = .next t) :
    t.Fits True := by
  simp only [exec, execNodeWrite] at h
  refine take_fits h hs fun u hu => ?_
  split
  · exact hu.refuseWrite ..
  · exact hu.refuseWrite ..
  · refine hu.testedRun fun bank ea => ?_
    split
    · exact hu.done ..
    · exact hu.withInHand _

theorem nodeFill_fits {tag : Byte} {l : List Word} (hs : s.Fits True) (h : exec (.nodeFill tag l) s = .next t) :
    t.Fits True := by
  simp only [exec, execNodeFill] at h
  refine take_fits h hs fun u hu => ?_
  split
  · exact hu.refuseWrite ..
  · exact hu.refuseWrite ..
  · split
    · exact hu.refuseWrite ..
    · refine hu.testedRun fun bank ea => ?_
      split
      · exact hu.done ..
      · exact hu.withInHand _

theorem nodeRead_fits {tag : Byte} {l : List Word} (hs : s.Fits True) (h : exec (.nodeRead tag l) s = .next t) :
    t.Fits True := by
  simp only [exec, execNodeRead] at h
  refine take_fits h hs fun u hu => ?_
  repeat' split
  case h_3.isFalse.isFalse.isFalse => exact hu.withInHand _
  all_goals exact hu.refuse _ _ _

theorem geometryRead_fits {tag : Byte} {l : List Word} (hs : s.Fits True)
    (h : exec (.geometryRead tag l) s = .next t) : t.Fits True := by
  simp only [exec, execGeometryRead] at h
  refine take_fits h hs fun u hu => hu.tested ?_
  split
  · exact hu.refuse _ _ _
  · exact hu.done _ _

theorem geometrySet_fits {tag : Byte} {l : List Word} (hs : s.Fits True)
    (h : exec (.geometrySet tag l) s = .next t) : t.Fits True := by
  simp only [exec, execGeometrySet] at h
  exact take_fits h hs fun u hu => hu.tested ((hu.withStore ⟨by simpa using hu.fits.store.scrub,
    by simpa using hu.fits.store.log⟩).done _ _)

theorem pipeSet_fits {tag : Byte} {l : List Word} (hs : s.Fits True) (h : exec (.pipeSet tag l) s = .next t) :
    t.Fits True := by
  simp only [exec, execPipeSet] at h
  refine take_fits h hs fun u hu => ?_
  repeat' split
  case h_2.isFalse => exact (hu.congr (by rfl)).done _ _
  all_goals exact hu.refuse _ _ _

theorem regionSelect_fits {tag : Byte} {l : List Word} (hs : s.Fits True)
    (h : exec (.regionSelect tag l) s = .next t) : t.Fits True := by
  simp only [exec, execRegionSelect] at h
  refine take_fits h hs fun u hu => hu.tested ?_
  split
  · exact hu.refuse _ _ _
  · exact State.Ready.done (hu.congr (by rfl)) _ _

theorem keyOpen_fits {tag : Byte} {l : List Word} (hs : s.Fits True) (h : exec (.keyOpen tag l) s = .next t) :
    t.Fits True := by
  simp only [exec, execKeyOpen] at h
  refine take_fits h hs fun u hu => hu.tested ?_
  repeat' split
  case isFalse.isFalse => exact State.Ready.done (hu.congr (by rfl)) _ _
  all_goals exact hu.refuse _ _ _

theorem keyLock_fits {tag : Byte} {l : List Word} (hs : s.Fits True) (h : exec (.keyLock tag l) s = .next t) :
    t.Fits True := by
  simp only [exec, execKeyLock] at h
  refine take_fits h hs fun u hu => hu.tested ?_
  split
  · exact State.Ready.refuse (hu.congr (by rfl)) _ _ _
  · exact hu.fits.congr rfl

theorem commit_fits {tag : Byte} {l : List Word} (hs : s.Fits True) (h : exec (.commit tag l) s = .next t) :
    t.Fits True := by
  simp only [exec, execCommit] at h
  refine take_fits h hs fun u hu => hu.tested ?_
  repeat' split
  case isFalse.isFalse => exact hu.fits.congr rfl
  all_goals exact hu.refuse _ _ _

theorem commitAbort_fits {tag : Byte} {l : List Word} (hs : s.Fits True) (h : exec (.commitAbort tag l) s = .next t) :
    t.Fits True := by
  simp only [exec, execCommitAbort] at h
  refine take_fits h hs fun u hu => hu.tested ?_
  split
  · exact hu.done _ _
  · exact (hu.withInHand _).congr rfl

theorem unknownCode_fits {tag code : Byte} {l : List Word} (hs : s.Fits True)
    (h : exec (.unknownCode tag code l) s = .next t) : t.Fits True := by
  simp only [exec, execUnknownCode] at h
  split at h
  · cases h
  · exact take_fits h hs fun u hu => hu.tested hu.fits

/-! ### Deferred work (R125, R127, R136 to R139, R142) -/

theorem State.Fits.postKeyLock (h : s.Fits settled) (c : Completion) (slot : Nat) (st : SlotState) (n : Nat) :
    (postKeyLock c slot st n s).Fits settled := by
  unfold Machine.postKeyLock
  split
  · exact h
  · exact .postDeferred (h.congr (by rfl)) (by decide) _ _ _ _

theorem State.Fits.breakProgramming (h : s.Fits settled) : (breakProgramming s).Fits settled := by
  unfold Machine.breakProgramming
  split
  · exact .postKeyLock (h.congr (by rfl)) _ _ _ _
  · exact h

theorem State.Fits.cancelActivate (h : s.Fits settled) : (cancelActivate s).Fits settled := by
  unfold Machine.cancelActivate
  dsimp only
  split
  · split
    · exact h.congr rfl
    · exact .postDeferred (h.congr (by rfl)) (by decide) _ _ _ _
  · exact h

theorem State.Fits.breakCommit (h : s.Fits settled) : (breakCommit s).Fits settled :=
  h.congr (by simp [State.contents])

theorem restart_fits {tag : Byte} {l : List Word} (hs : s.Fits True) (h : exec (.restart tag l) s = .next t) :
    t.Fits True := by
  simp only [exec, execRestart] at h
  refine take_fits h hs fun u hu => hu.tested ?_
  exact (State.Fits.cancelActivate (hu.fits.congr (by rfl))).breakProgramming.breakCommit.postRestart

theorem State.Fits.postCommit (h : s.Fits settled) (c : Completion) (l : List Word) :
    (postCommit c l s).Fits settled := by
  unfold Machine.postCommit
  split
  · exact h.completeAbort
  · exact .completeAbort (.postDeferred (h.congr (by rfl)) (by decide) _ _ _ _)

theorem State.Fits.commitStopped (h : s.Fits settled) (c : Commit) (why : CommitStop) (error : Bool) :
    (commitStopped c why error s).Fits settled := by
  unfold Machine.commitStopped
  dsimp only
  split <;> exact .postCommit (h.congr (by rfl)) _ _

theorem flashOperationEnd_fits {e : Bool} {l : List Word} (hs : s.Fits True)
    (h : exec (.flashOperationEnd e l) s = .next t) : t.Fits True := by
  simp only [exec, execFlashOperationEnd] at h
  refine event_fits h hs ?_
  split
  · exact hs
  · split
    · exact hs
    · split
      · split
        · exact (State.Fits.commitStopped (hs.congr (by rfl)) _ _ _).postRestart
        · exact hs.congr rfl
      · split
        · exact hs.congr rfl
        · split
          · exact hs.congr rfl
          · exact .postCommit (hs.congr (by rfl)) _ _
          · exact hs.congr rfl

theorem keyWordProgrammed_fits {w : Word} (hs : s.Fits True) (h : exec (.keyWordProgrammed w) s = .next t) :
    t.Fits True := by
  simp only [exec, execKeyWordProgrammed] at h
  refine event_fits h hs ?_
  split
  · exact hs
  · split
    · split
      · exact (State.Fits.postKeyLock (hs.congr (by rfl)) _ _ _ _).postRestart
      · exact hs.congr rfl
    · exact (State.Fits.postKeyLock (hs.congr (by rfl)) _ _ _ _).postRestart
    · exact hs

theorem keyVerifyEnd_fits (hs : s.Fits True) (h : exec .keyVerifyEnd s = .next t) : t.Fits True := by
  simp only [exec, execKeyVerifyEnd] at h
  refine event_fits h hs ?_
  split
  · exact hs
  · split
    · split
      · exact .postKeyLock (hs.congr (by rfl)) _ _ _ _
      · exact hs.congr rfl
    · exact hs

/-! ### The store and the engine's accesses -/

theorem scrubWriteBack_fits (hs : s.Fits True) (h : exec .scrubWriteBack s = .next t) : t.Fits True := by
  simp only [exec, execScrubWriteBack] at h
  refine event_fits h hs ?_
  split
  · exact hs
  · next r rest hq =>
    have hrest : rest.length ≤ Config.scrubQueueSize := by
      have := hs.store.scrub
      rw [hq, List.length_cons] at this
      omega
    split
    · exact hs
    · split
      · exact hs.withStore ⟨hrest, by simpa using hs.store.log⟩
      · exact hs.withStore ⟨hrest, hs.store.log⟩

theorem State.Fits.advanceAnchor (h : s.Fits settled) (run : Run) (write : Bool) :
    (advanceAnchor run write s).Fits settled := by
  unfold Machine.advanceAnchor
  dsimp only
  split
  · exact h.withAnchor ..
  · exact h

@[simp] theorem advanceAnchor_inHand (run : Run) (write : Bool) (s : State) :
    (advanceAnchor run write s).eng.inHand = s.eng.inHand := by
  unfold advanceAnchor
  dsimp only
  split <;> simp

/-- A node command in hand goes on. -/
theorem State.Fits.goesOn (h : s.Fits settled) (hhand : s.eng.inHand ≠ none) (j : Job) :
    State.Fits settled { s with eng.inHand := some j } :=
  h.withInHand _ fun _ => h.queue.hand hhand

theorem engineWordWrite_fits (hs : s.Fits True) (h : exec .engineWordWrite s = .next t) : t.Fits True := by
  simp only [exec, execEngineWordWrite] at h
  refine event_fits h hs ?_
  have hwritten : ∀ bank a w, (commandWrite bank a w s).Fits True := fun bank a w =>
    hs.congr (commandWrite_contents bank a w s)
  split
  · next hhand =>
    split
    · exact ((hwritten ..).advanceAnchor ..).complete (by simp [hhand]) _ _ _
    · exact (hwritten ..).goesOn (by simp [hhand]) _
  · next hhand =>
    split
    · exact ((hwritten ..).advanceAnchor ..).complete (by simp [hhand]) _ _ _
    · exact (hwritten ..).goesOn (by simp [hhand]) _
  · exact hs

theorem engineWordRead_fits (hs : s.Fits True) (h : exec .engineWordRead s = .next t) : t.Fits True := by
  simp only [exec, execEngineWordRead] at h
  refine event_fits h hs ?_
  split
  · next run left held got _ hhand =>
    have hread : (noteRead run.bank run.next s).Fits True := hs.noteRead ..
    split
    · split
      · exact hread.complete (by simp [hhand]) _ _ _
      · exact (hread.advanceAnchor ..).complete (by simp [hhand]) _ _ _
    · exact hread.goesOn (by simp [hhand]) _
  · exact hs

theorem commitReaderWord_fits (hs : s.Fits True) (h : exec .commitReaderWord s = .next t) : t.Fits True := by
  simp only [exec, execCommitReaderWord] at h
  refine event_fits h hs ?_
  split
  · exact hs
  · split
    · split <;> exact (hs.noteRead ..).congr rfl
    · exact hs

theorem storageFault_fits {bank : Bank} {a i : Nat} (hs : s.Fits True) (h : exec (.storageFault bank a i) s = .next t) :
    t.Fits True := by
  simp only [exec, execStorageFault] at h
  split at h
  · cases h
  · exact event_fits h hs (hs.congr (by simp [State.contents]))

theorem keyArrayStorageFault_fits {slot w i : Nat} (hs : s.Fits True)
    (h : exec (.keyArrayStorageFault slot w i) s = .next t) : t.Fits True := by
  simp only [exec, execKeyArrayStorageFault] at h
  split at h
  · cases h
  · split at h <;> cases h
    · exact hs
    · exact hs.congr rfl

/-! ### Start-up and the return lane -/

theorem ReturnPath.start_queueFits : ReturnPath.start.QueueFits True none := by
  constructor <;> simp [ReturnPath.start]

theorem startUpBegin_fits (now : Nat) (s : State) : (startUpBegin now s).Fits True where
  queue := ReturnPath.start_queueFits
  covered := by simp [ReturnPath.Covered, startUpBegin, ReturnPath.start]
  commands := Nat.zero_le _
  anchors := rfl
  store := ⟨Nat.zero_le _, .nil⟩
  mon := Monitor.start_fits

theorem keyArrayScanEnd_fits (hs : s.Fits True) (h : exec .keyArrayScanEnd s = .next t) : t.Fits True := by
  simp only [exec, execKeyArrayScanEnd] at h
  refine event_fits h hs ?_
  split
  · exact hs.congr rfl
  · exact hs

@[simp] theorem loaderWrite_contents (ph : LoadPhase) (s : State) : (loaderWrite ph s).contents = s.contents := by
  unfold loaderWrite
  repeat' split
  all_goals simp [State.contents]

theorem loaderWordWrite_fits {f : Bool} (hs : s.Fits True) (h : exec (.loaderWordWrite f) s = .next t) :
    t.Fits True := by
  simp only [exec, execLoaderWordWrite] at h
  refine event_fits h hs ?_
  repeat' split
  all_goals exact hs.congr (by simp)

theorem finishLoad_contents (ph : LoadPhase) (s : State) : (finishLoad ph s).contents = s.contents := by
  unfold finishLoad loadEnds
  repeat' split
  all_goals rfl

/-- The image words still to be written change the words of bank A alone. -/
theorem loadRest_frame (f : List Host.Cell) (count k : Nat) (crc : Word) (st : Store) :
    (loadRest f count k crc st).1.log = st.log ∧ (loadRest f count k crc st).1.scrub = st.scrub := by
  induction count generalizing k crc st with
  | zero => exact ⟨rfl, rfl⟩
  | succ count ih => simpa [loadRest] using ih (k + 1) _ (st.writeWord .a k _)

theorem startUpLoadEnd_fits {f : Bool} (hs : s.Fits True) (h : exec (.startUpLoadEnd f) s = .next t) :
    t.Fits True := by
  simp only [exec, execStartUpLoadEnd] at h
  refine event_fits h hs ?_
  split
  · split
    · next k crc _ =>
      refine .congr ?_ (finishLoad_contents _ _)
      obtain ⟨hlog, hscrub⟩ := loadRest_frame s.life.flash _ _ _ s.store
      exact hs.withStore ⟨hscrub ▸ hs.store.scrub, hlog ▸ hs.store.log⟩
    · exact hs.congr (finishLoad_contents ..)
  · exact hs

theorem replyTransmissionEnd_fits {now : Nat} (hs : s.Fits True) (h : exec (.replyTransmissionEnd now) s = .next t) :
    t.Fits True := by
  simp only [exec, execReplyTransmissionEnd] at h
  refine event_fits h hs ?_
  split
  · next hq =>
    split
    · exact startUpBegin_fits now s
    · exact (hs.admitWaiter hq).postRestart.startLane
  · exact hs

/-! ### Every step -/

/-- Every command keeps the capacities. -/
theorem exec_fits {c : Instr} (hs : s.Fits True) (h : exec c s = .next t) : t.Fits True := by
  cases c with
  | status tag l => exact take_tested_done_fits h hs fun _ hu => hu
  | release tag l => exact take_tested_done_fits h hs fun _ hu => hu.congr rfl
  | restart tag l => exact restart_fits hs h
  | anchorSet tag l => exact anchorSet_fits hs h
  | anchorRead tag l => exact take_tested_done_fits h hs fun _ hu => hu
  | nodeWrite tag l => exact nodeWrite_fits hs h
  | nodeRead tag l => exact nodeRead_fits hs h
  | nodeFill tag l => exact nodeFill_fits hs h
  | geometrySet tag l => exact geometrySet_fits hs h
  | geometryRead tag l => exact geometryRead_fits hs h
  | activate tag l => exact take_fits h hs fun _ hu => hu.tested (hu.fits.congr rfl)
  | logRead tag l => exact take_tested_done_fits h hs fun _ hu => hu
  | logClear tag l =>
    exact take_tested_done_fits h hs fun _ hu => hu.withStore ⟨hu.fits.store.scrub, .nil⟩
  | pipeSet tag l => exact pipeSet_fits hs h
  | pipeRead tag l => exact take_tested_done_fits h hs fun _ hu => hu
  | windowSet tag l => exact take_tested_done_fits h hs fun _ hu => hu.withMon { hu.fits.mon with }
  | reportRead tag l => exact take_tested_done_fits h hs fun _ hu => hu
  | conditionsRead tag l => exact take_tested_done_fits h hs fun _ hu => hu.withMon { hu.fits.mon with }
  | captureRead tag l => exact take_tested_done_fits h hs fun _ hu => hu
  | captureClear tag l => exact take_tested_done_fits h hs fun _ hu => hu.withMon { hu.fits.mon with }
  | profileWrite tag l => exact take_fits h hs fun _ hu => hu.tested (State.Ready.done (hu.congr (by rfl)) _ _)
  | profileRead tag l => exact take_tested_done_fits h hs fun _ hu => hu
  | regionSelect tag l => exact regionSelect_fits hs h
  | keyOpen tag l => exact keyOpen_fits hs h
  | keyData tag l =>
    simp only [exec, execKeyData] at h
    exact take_fits h hs fun _ hu => hu.tested (State.Ready.done (hu.congr (by rfl)) _ _)
  | keyLock tag l => exact keyLock_fits hs h
  | keyAbandon tag l =>
    simp only [exec, execKeyAbandon] at h
    exact take_fits h hs fun _ hu => hu.tested (State.Ready.done (hu.congr (by rfl)) _ _)
  | keyQuery tag l => exact take_tested_done_fits h hs fun _ hu => hu
  | commit tag l => exact commit_fits hs h
  | commitAbort tag l => exact commitAbort_fits hs h
  | reopen tag l => exact take_tested_done_fits h hs fun _ hu => hu.congr rfl
  | unknownCode tag code l => exact unknownCode_fits hs h
  | powerOn now =>
    cases h
    exact startUpBegin_fits ..
  | powerRemoval m w l => exact event_fits h hs (hs.congr rfl)
  | storageFault bank a i => exact storageFault_fits hs h
  | fetchWordRead => exact event_fits h hs hs.fetchRead
  | scrubWriteBack => exact scrubWriteBack_fits hs h
  | engineWordWrite => exact engineWordWrite_fits hs h
  | engineWordRead => exact engineWordRead_fits hs h
  | commitReaderWord => exact commitReaderWord_fits hs h
  | flashOperationEnd e l => exact flashOperationEnd_fits hs h
  | keyWordProgrammed w => exact keyWordProgrammed_fits hs h
  | keyVerifyEnd => exact keyVerifyEnd_fits hs h
  | keyArrayScanEnd => exact keyArrayScanEnd_fits hs h
  | loaderWordWrite f => exact loaderWordWrite_fits hs h
  | startUpLoadEnd f => exact startUpLoadEnd_fits hs h
  | replyTransmissionEnd now => exact replyTransmissionEnd_fits hs h
  | keyArrayStorageFault slot w i => exact keyArrayStorageFault_fits hs h
  | _ => exact ofFrames_fits hs h rfl

/-- Settles O5: the invariant reads no command of the sender's queue, and every command keeps it. -/
theorem stepKeepsBounded : Obligations.StepKeepsBounded := by
  intro s t hs h
  rw [bounded_iff] at hs ⊢
  unfold step at h
  split at h
  · cases h
    exact hs
  · next c rest _ => exact exec_fits (s := { s with pending := rest }) (hs.congr rfl) h

end Sys2Proof.Machine
end

section
/-! SUPPORT. Anchors: ANCHOR SET and ANCHOR READ, the effective address, and the advance of a base anchor. -/

namespace Sys2Proof.Machine

/-! ### Steps 1 to 3 of R148, further rows of Table 46 -/

/-- STARTING refuses a tested command with BUSY. -/
theorem tested_starting {p : Packet} {g : Gate} {tests : List (Bool × Reason)} {run : State → State} {s : State}
    (hl : s.life.lifecycle = .starting) (hg : g ≠ .status) : tested p g tests run s = refuse p .busy [] s := by
  simp only [tested, refusal, gateRefusal, hl, hg, if_true, if_false]

/-- An engine that is not held passes steps 1 to 3 of R148 with ANCHOR SET in FACTORY and COMMISSIONED. -/
theorem gateRefusal_anchor {s : State} (hl : s.life.lifecycle = .factory ∨ s.life.lifecycle = .commissioned)
    (hold : s.eng.hold = none) : gateRefusal .anchor s = none := by
  obtain hl | hl := hl <;> simp [gateRefusal, lifecycleRefusal, hl, hold]

/-! ### Anchors read and written (R87) -/

/-- A three-bit field names an anchor of 0 to 7. -/
theorem bits_le_seven {w : Word} {lo : Nat} : bits w (lo + 2) lo ≤ 7 := by
  have hmod : bits w (lo + 2) lo < 2 ^ (lo + 2 + 1 - lo) := Nat.mod_lt _ (Nat.two_pow_pos _)
  rw [show lo + 2 + 1 - lo = 3 by omega] at hmod
  omega

/-- Writing an anchor replaces the anchors alone. -/
theorem Engine.setAnchor_eq (e : Engine) (i : Nat) (a : Anchor) :
    e.setAnchor i a = { e with anchors := (e.setAnchor i a).anchors } := by
  unfold Engine.setAnchor
  split <;> rfl

/-! ### ANCHOR SET and ANCHOR READ (R88, R89) -/

section

variable {s : State} {tag : Byte} {v : Word} {l : List Word}

/-- ANCHOR SET once taken, with a mode of no name. -/
theorem anchorSet_unnamed (ht : s.canTake ⟨tag, 0x18, v :: l⟩ = true) (hg : gateRefusal .anchor s.taken = none)
    (hm : anchorModeOf (bits v 1 0) = none) :
    exec (.anchorSet tag (v :: l)) s = .next (refuse ⟨tag, 0x18, v :: l⟩ .format [] s.taken) := by
  simp only [exec, execAnchorSet]
  rw [take_canTake s _ ht, dequeue_taken, show word (v :: l) 0 = v from rfl]
  simp only [hg, hm]

/-- ANCHOR SET once taken, with a mode that has a name: INDEX, then LENGTH, then the anchor is written. -/
theorem anchorSet_named {mode : AnchorMode} (ht : s.canTake ⟨tag, 0x18, v :: l⟩ = true)
    (hg : gateRefusal .anchor s.taken = none) (hm : anchorModeOf (bits v 1 0) = some mode) :
    exec (.anchorSet tag (v :: l)) s = .next (
      if bits v 10 8 = 0 then refuse ⟨tag, 0x18, v :: l⟩ .index [] s.taken
      else if (v :: l).length ≠ 2 then refuse ⟨tag, 0x18, v :: l⟩ .length [] s.taken
      else
        done ⟨tag, 0x18, v :: l⟩ [anchorWord (bits v 10 8) ⟨(word (v :: l) 1).setWidth 20, mode⟩]
          { s.taken with
            eng := s.taken.eng.setAnchor (bits v 10 8) ⟨(word (v :: l) 1).setWidth 20, mode⟩ }) := by
  simp only [exec, execAnchorSet]
  rw [take_canTake s _ ht, dequeue_taken, show word (v :: l) 0 = v from rfl]
  simp only [hg, hm]

end

/-- Settles O21. -/
theorem anchorSetAnswers : Obligations.AnchorSetAnswers := by
  intro tag v l s ht hl hold hlen
  have gate : gateRefusal .anchor s.taken = none := gateRefusal_anchor hl hold
  refine ⟨fun hm => ?_, fun mode hm => ?_⟩
  · rw [anchorSet_unnamed ht gate hm]
    exact answers_post _ _ _ _ _ rfl
  rw [anchorSet_named ht gate hm]
  refine ⟨fun h0 => ?_, fun h0 hne => ?_, fun i w hi h0 hw => ?_⟩
  · rw [if_pos h0]
    exact answers_post _ _ _ _ _ rfl
  · rw [if_neg h0, if_pos (by simpa using hne)]
    exact answers_post _ _ _ _ _ rfl
  · subst hi hw
    have hanchor : bits v 10 8 ≤ s.taken.eng.anchors.length := hlen ▸ bits_le_seven
    refine ⟨s.taken.eng.setAnchor (bits v 10 8) ⟨w.setWidth 20, mode⟩, Engine.anchor_setAnchor_same _ _ _ h0 hanchor,
      fun j hj => Engine.anchor_setAnchor_ne _ _ _ hj, Engine.setAnchor_eq _ _ _, ?_⟩
    rw [if_neg h0, if_neg (by simp)]
    exact answers_post _ _ _ _ _ rfl

/-- Settles O22. -/
theorem anchorReadAnswers : Obligations.AnchorReadAnswers := by
  intro tag l s ht
  refine ⟨fun hl => ?_, fun hl hne => ?_, fun hl hlen => plain_answers ht hl (by simpa using hlen) rfl⟩
  · simp only [exec, execAnchorRead]
    rw [take_canTake s _ ht, dequeue_taken, tested_starting (s := s.taken) hl (by decide)]
    exact answers_post _ _ _ _ _ rfl
  · simp only [exec, execAnchorRead]
    rw [take_canTake s _ ht, dequeue_taken,
      tested_refused (r := .length) (gateRefusal_plain s.taken hl) (by simp [firstFailing, lengthIs, hne])]
    exact answers_post _ _ _ _ _ rfl

/-! ### The effective address (R90, R91) -/

/-- The low 16 bits of a word, as a field and as a bit vector. -/
theorem ofNat_bits_low (w : Word) : BitVec.ofNat 16 (bits w 15 0) = w.extractLsb' 0 16 := by
  apply BitVec.eq_of_toNat_eq
  simp [bits]

/-- A sum of 20 bits is the sum of the numbers modulo 2^20, a sign-extended addend counted with its sign. -/
theorem toNat_add_signExtend (a x : BitVec 20) (d : BitVec 16) :
    ((a + x + d.signExtend 20).toNat : Int) = ((a.toNat : Int) + x.toNat + d.toInt) % 1048576 := by
  rw [BitVec.signExtend, BitVec.toNat_add, BitVec.toNat_add, BitVec.toNat_ofInt]
  omega

/-! ### The advance of a base anchor (R87, R92) -/

/-- The modes that advance, in the words of R87. -/
theorem AnchorMode.advances_iff (m : AnchorMode) (write : Bool) :
    m.advances write = true ↔ m = .onReadAndWrite ∨ (m = .onWrite ∧ write = true) := by
  cases m <;> simp [AnchorMode.advances]

/-- A write advances an anchor in every mode but NONE. -/
theorem AnchorMode.advances_write (m : AnchorMode) : m.advances true = true ↔ m ≠ .none := by
  cases m <;> simp [AnchorMode.advances]

/-- What each anchor is after the advance: the base anchor moves by the run's length if its mode allows; anchor 0
never does. -/
theorem anchor_advanceAnchor (run : Run) (write : Bool) {s : State} (hb : run.base ≤ s.eng.anchors.length) (i : Nat) :
    (advanceAnchor run write s).eng.anchor i =
      if i = run.base ∧ (s.eng.anchor i).mode.advances write = true then
        { s.eng.anchor i with value := (s.eng.anchor i).value + BitVec.ofNat 20 run.n }
      else s.eng.anchor i := by
  unfold advanceAnchor
  by_cases hadv : (s.eng.anchor run.base).mode.advances write = true
  · have h0 : run.base ≠ 0 := by
      intro h0
      rw [h0] at hadv
      simp [AnchorMode.advances] at hadv
    rw [if_pos hadv]
    by_cases hi : i = run.base
    · subst hi
      rw [if_pos ⟨rfl, hadv⟩]
      exact Engine.anchor_setAnchor_same _ _ _ h0 hb
    · rw [if_neg (fun h => hi h.1)]
      exact Engine.anchor_setAnchor_ne _ _ _ hi
  · rw [if_neg hadv, if_neg]
    rintro ⟨rfl, h⟩
    exact hadv h

/-- The advance replaces the anchors alone. -/
theorem advanceAnchor_eq (run : Run) (write : Bool) (s : State) :
    advanceAnchor run write s = { s with eng.anchors := (advanceAnchor run write s).eng.anchors } := by
  unfold advanceAnchor
  dsimp only
  split
  · exact congrArg (fun e => { s with eng := e }) (Engine.setAnchor_eq _ _ _)
  · rfl

/-- Settles O23. -/
theorem anchorsAddressAndAdvance : Obligations.AnchorsAddressAndAdvance := by
  refine ⟨fun e w => ?_, fun run write s hlen hbase => ?_⟩
  · rw [ofNat_bits_low]
    exact toNat_add_signExtend _ _ _
  · have anchors := anchor_advanceAnchor run write (hlen ▸ hbase)
    refine ⟨fun i hi => ?_, ?_, ?_, advanceAnchor_eq run write s⟩
    · rw [anchors, if_neg (fun h => hi h.1)]
    · rw [anchors]
      split <;> rfl
    · simp only [anchors, ← AnchorMode.advances_iff, true_and]
      split
      · simp [BitVec.toNat_add]
      · rfl

end Sys2Proof.Machine
end

section
/-! SUPPORT. NODE WRITE and NODE FILL: their refusals, which enter hold, and the run of a NODE WRITE to its end. -/

namespace Sys2Proof.Machine

/-! ### Roles and runs (R67, R91) -/

theorem roleOf_none {w : Word} (h : 1 < bits w 31 30) : roleOf w = none := by
  unfold roleOf
  split <;> simp_all

theorem roleOf_some {w : Word} (h : bits w 31 30 ≤ 1) : ∃ role, roleOf w = some role := by
  obtain h | h : bits w 31 30 = 0 ∨ bits w 31 30 = 1 := by omega
  · exact ⟨.active, by simp [roleOf, h]⟩
  · exact ⟨.load, by simp [roleOf, h]⟩

theorem roleOf_load {w : Word} (h : bits w 31 30 = 1) : roleOf w = some .load := by simp [roleOf, h]

theorem runTooLong_iff {ea n : Nat} : runTooLong ea n = true ↔ 1 ≤ n ∧ 786432 < ea + n := by
  rw [runTooLong, Bool.and_eq_true, decide_eq_true_eq, decide_eq_true_eq, Config.bankWords]
  omega

theorem runTooLong_false {ea n : Nat} (h : n = 0 ∨ ea + n ≤ 786432) : runTooLong ea n = false := by
  rw [Bool.eq_false_iff, Ne, runTooLong_iff]
  omega

/-! ### Tests that NODE WRITE and NODE FILL share -/

section

variable {p : Packet} {role : Role} {n : Nat} {run : Bank → Nat → State → State} {s : State}

/-- A run past the bank's end is refused with ADDRESS, whatever the bank. -/
theorem testedRun_address (h : runTooLong (effectiveAddress s.eng (word p.payload 0)).toNat n = true) :
    testedRun p role n run s =
      refuseWrite p .address (some (effectiveAddress s.eng (word p.payload 0)).toNat) s := by
  simp only [testedRun, h, if_true]

/-- A run within the frozen LOAD bank is refused with BUSY. -/
theorem testedRun_busy (h : runTooLong (effectiveAddress s.eng (word p.payload 0)).toNat n = false)
    (ha : s.store.activatePending = true) :
    testedRun p .load n run s = refuseWrite p .busy (some (effectiveAddress s.eng (word p.payload 0)).toNat) s := by
  simp [testedRun, h, ha]

/-- A run within a bank that is not frozen goes on. -/
theorem testedRun_runs (h : runTooLong (effectiveAddress s.eng (word p.payload 0)).toNat n = false)
    (ha : role = .load → s.store.activatePending = false) :
    testedRun p role n run s =
      run (s.store.bankOf role) (effectiveAddress s.eng (word p.payload 0)).toNat s := by
  have hfrozen : ¬ (role = .load ∧ s.store.activatePending = true) := fun ⟨hr, hp⟩ => by simp [ha hr] at hp
  simp [testedRun, h, hfrozen]

end

/-! ### NODE WRITE and NODE FILL once taken (R94, R98) -/

section

variable {s : State} {tag : Byte} {w : Word} {ws : List Word} {role : Role}

theorem nodeWrite_unnamed (ht : s.canTake ⟨tag, 0x20, w :: ws⟩ = true) (hg : gateRefusal .change s.taken = none)
    (hr : roleOf w = none) :
    exec (.nodeWrite tag (w :: ws)) s = .next (refuseWrite ⟨tag, 0x20, w :: ws⟩ .format none s.taken) := by
  simp only [exec, execNodeWrite]
  rw [take_canTake s _ ht, dequeue_taken, show word (w :: ws) 0 = w from rfl]
  simp only [hg, hr]

theorem nodeWrite_named (ht : s.canTake ⟨tag, 0x20, w :: ws⟩ = true) (hg : gateRefusal .change s.taken = none)
    (hr : roleOf w = some role) :
    exec (.nodeWrite tag (w :: ws)) s = .next (
      testedRun ⟨tag, 0x20, w :: ws⟩ role ws.length (fun bank ea u =>
        if (w :: ws).length = 1 then done ⟨tag, 0x20, w :: ws⟩ [addressWord ea] u
        else { u with eng.inHand := some (.write ⟨tag, bank, baseOf w, ws.length, ea⟩ ws) }) s.taken) := by
  simp only [exec, execNodeWrite]
  rw [take_canTake s _ ht, dequeue_taken, show word (w :: ws) 0 = w from rfl]
  simp only [hg, hr, List.length_cons, Nat.add_sub_cancel, List.tail_cons]

theorem nodeFill_unnamed (ht : s.canTake ⟨tag, 0x22, w :: ws⟩ = true) (hg : gateRefusal .change s.taken = none)
    (hr : roleOf w = none) :
    exec (.nodeFill tag (w :: ws)) s = .next (refuseWrite ⟨tag, 0x22, w :: ws⟩ .format none s.taken) := by
  simp only [exec, execNodeFill]
  rw [take_canTake s _ ht, dequeue_taken, show word (w :: ws) 0 = w from rfl]
  simp only [hg, hr]

theorem nodeFill_length (ht : s.canTake ⟨tag, 0x22, w :: ws⟩ = true) (hg : gateRefusal .change s.taken = none)
    (hr : roleOf w = some role) (hlen : ws.length ≠ 2) :
    exec (.nodeFill tag (w :: ws)) s = .next (refuseWrite ⟨tag, 0x22, w :: ws⟩ .length none s.taken) := by
  simp only [exec, execNodeFill]
  rw [take_canTake s _ ht, dequeue_taken, show word (w :: ws) 0 = w from rfl]
  simp [hg, hr, hlen]

theorem nodeFill_named {v len : Word} (ht : s.canTake ⟨tag, 0x22, [w, v, len]⟩ = true)
    (hg : gateRefusal .change s.taken = none) (hr : roleOf w = some role) :
    exec (.nodeFill tag [w, v, len]) s = .next (
      testedRun ⟨tag, 0x22, [w, v, len]⟩ role (min (bits len 19 0) 4096) (fun bank ea u =>
        if min (bits len 19 0) 4096 = 0 then done ⟨tag, 0x22, [w, v, len]⟩ [residualWord 0, addressWord ea] u
        else { u with
          eng.inHand := some (.fill ⟨tag, bank, baseOf w, min (bits len 19 0) 4096, ea⟩ v (min (bits len 19 0) 4096)
            (bits len 19 0 - min (bits len 19 0) 4096)) }) s.taken) := by
  simp only [exec, execNodeFill]
  rw [take_canTake s _ ht, dequeue_taken, show word [w, v, len] 0 = w from rfl]
  simp only [hg, hr]
  rfl

end

/-! ### Refusals that enter hold (R93) -/

section

variable {s : State} {c : Instr} {p : Packet}

/-- The state in which a refusal of NODE WRITE or NODE FILL posts its reply: the packet taken, and hold entered. -/
def State.heldBy (s : State) (p : Packet) (r : Reason) (a : Option Nat) : State :=
  { s.taken with eng.hold := some ⟨.refusal r, some p.tag, none, a, s.timing.frameNumber⟩ }

/-- A refusal other than HELD enters hold, and its reply shows it. -/
theorem answers_refuseWrite {r : Reason} {a : Option Nat} (hold : s.eng.hold = none) (hr : r ≠ .held) :
    answers (.next (refuseWrite p r a s.taken)) (s.heldBy p r a) p.tag p.code (.refused r) [] := by
  rw [refuseWrite, if_neg hr]
  refine answers_post _ _ _ _ _ ?_
  simp only [enterHold, State.taken, hold, State.heldBy]

/-- The command reaches the tests of its run of `n` words, addressed by `w`. -/
def ReachesRun (c : Instr) (p : Packet) (w : Word) (n : Nat) (s : State) : Prop :=
  word p.payload 0 = w ∧ ∀ role, roleOf w = some role →
    ∃ run, exec c s = .next (testedRun p role n run s.taken)

variable {w : Word} {n : Nat}

/-- NODE WRITE, and NODE FILL with three words, reach the tests of their run (R94, R98). -/
theorem reachesRun (hp : c.packet = some p) (ht : s.canTake p = true) (hg : gateRefusal .change s.taken = none)
    (h : (∃ tag ws, c = .nodeWrite tag (w :: ws) ∧ n = ws.length) ∨
      (∃ tag v len, c = .nodeFill tag [w, v, len] ∧ n = min (bits len 19 0) 4096)) : ReachesRun c p w n s := by
  obtain ⟨tag, ws, rfl, rfl⟩ | ⟨tag, v, len, rfl, rfl⟩ := h <;> cases hp
  · exact ⟨rfl, fun role hr => ⟨_, nodeWrite_named ht hg hr⟩⟩
  · exact ⟨rfl, fun role hr => ⟨_, nodeFill_named ht hg hr⟩⟩

theorem ReachesRun.address (h : ReachesRun c p w n s) (hold : s.eng.hold = none) (hw : bits w 31 30 ≤ 1)
    (hn : runTooLong (effectiveAddress s.eng w).toNat n = true) :
    answers (exec c s) (s.heldBy p .address (some (effectiveAddress s.eng w).toNat)) p.tag p.code (.refused .address)
      [] := by
  obtain ⟨rfl, hrun⟩ := h
  obtain ⟨role, hr⟩ := roleOf_some hw
  obtain ⟨run, heq⟩ := hrun role hr
  rw [heq, testedRun_address (s := s.taken) hn]
  exact answers_refuseWrite hold nofun

theorem ReachesRun.busy (h : ReachesRun c p w n s) (hold : s.eng.hold = none) (hw : bits w 31 30 = 1)
    (hn : runTooLong (effectiveAddress s.eng w).toNat n = false) (ha : s.store.activatePending = true) :
    answers (exec c s) (s.heldBy p .busy (some (effectiveAddress s.eng w).toNat)) p.tag p.code (.refused .busy) [] := by
  obtain ⟨rfl, hrun⟩ := h
  obtain ⟨run, heq⟩ := hrun .load (roleOf_load hw)
  rw [heq, testedRun_busy (s := s.taken) hn ha]
  exact answers_refuseWrite hold nofun

end

/-- Settles O25. -/
theorem nodeRefusalsHold : Obligations.NodeRefusalsHold := by
  intro c p w s hp ht hl hold
  have gate : gateRefusal .change s.taken = none := gateRefusal_factory s.taken .change hl hold nofun nofun
  refine ⟨?_, ?_, fun n hc => ?_⟩
  · rintro ⟨tag, ws, rfl | rfl⟩ hw <;> cases hp
    · rw [nodeWrite_unnamed ht gate (roleOf_none hw)]
      exact answers_refuseWrite hold nofun
    · rw [nodeFill_unnamed ht gate (roleOf_none hw)]
      exact answers_refuseWrite hold nofun
  · rintro ⟨tag, ws, rfl, hlen⟩ hw
    cases hp
    obtain ⟨role, hr⟩ := roleOf_some hw
    rw [nodeFill_length ht gate hr hlen]
    exact answers_refuseWrite hold nofun
  · have hrun : ReachesRun c p w n s := reachesRun hp ht gate hc
    exact ⟨fun hw hn hend => hrun.address hold hw (runTooLong_iff.mpr ⟨hn, hend⟩),
      fun hw hend ha => hrun.busy hold hw (runTooLong_false hend) ha⟩

/-! ### Words written one after another (R95) -/

/-- Command writes of consecutive words from an address. -/
def commandWrites (bank : Bank) : Nat → List Word → State → State
  | _, [], s => s
  | a, w :: ws, s => commandWrites bank (a + 1) ws (commandWrite bank a w s)

theorem eq_otherBank {o bank : Bank} (h : o ≠ bank) : o = otherBank bank := by
  cases o <;> cases bank <;> simp_all [otherBank]

/-- The store's words after a command write. -/
theorem wordAt_commandWrite (bank : Bank) (a : Nat) (w : Word) {s : State}
    (h : Memory.wf .zero (s.store.words bank) = true) (o : Bank) (x : Nat) :
    (commandWrite bank a w s).store.wordAt o x =
      if o = bank ∧ x = a then ⟨stripSpare w, 0⟩ else s.store.wordAt o x := by
  simp only [commandWrite, writeThrough_frame]
  by_cases ho : o = bank
  · subst ho
    by_cases hx : x = a
    · subst hx
      rw [if_pos ⟨rfl, rfl⟩, wordAt_writeWord_same _ _ _ _ h]
    · rw [if_neg (fun hc => hx hc.2), wordAt_writeWord_ne _ _ _ h hx]
  · rw [if_neg (fun hc => ho hc.1), eq_otherBank ho, wordAt_writeWord_other]

/-- A command write keeps its bank canonical. -/
theorem wf_commandWrite (bank : Bank) (a : Nat) (w : Word) {s : State}
    (h : Memory.wf .zero (s.store.words bank) = true) :
    Memory.wf .zero ((commandWrite bank a w s).store.words bank) = true := by
  simp only [commandWrite, writeThrough_frame, Store.writeWord, Store.words_setWords_same]
  exact Memory.wf_write h

/-- Words outside the run are as before. -/
theorem wordAt_commandWrites_out {bank o : Bank} {a x : Nat} {ws : List Word} {s : State}
    (h : Memory.wf .zero (s.store.words bank) = true) (hout : o ≠ bank ∨ x < a ∨ a + ws.length ≤ x) :
    (commandWrites bank a ws s).store.wordAt o x = s.store.wordAt o x := by
  induction ws generalizing a s with
  | nil => rfl
  | cons w ws ih =>
    rw [List.length_cons] at hout
    have hne : ¬ (o = bank ∧ x = a) := by
      rintro ⟨rfl, rfl⟩
      obtain hbank | hbelow | habove := hout
      · exact hbank rfl
      · omega
      · omega
    rw [commandWrites, ih (wf_commandWrite bank a w h) (hout.imp_right (by omega)), wordAt_commandWrite bank a w h,
      if_neg hne]

/-- The words of the run stand at their addresses, clean and with spare bits 0. -/
theorem wordAt_commandWrites_in {bank : Bank} {a i : Nat} {ws : List Word} {v : Word} {s : State}
    (h : Memory.wf .zero (s.store.words bank) = true) (hv : ws[i]? = some v) :
    (commandWrites bank a ws s).store.wordAt bank (a + i) = ⟨stripSpare v, 0⟩ := by
  induction ws generalizing a i s with
  | nil => simp at hv
  | cons w ws ih =>
    have hwf := wf_commandWrite bank a w h
    rw [commandWrites]
    cases i with
    | zero =>
      obtain rfl : w = v := by simpa using hv
      rw [wordAt_commandWrites_out hwf (by omega), wordAt_commandWrite bank a w h, if_pos ⟨rfl, rfl⟩]
    | succ i =>
      rw [show a + (i + 1) = a + 1 + i by omega]
      exact ih hwf (by simpa using hv)

@[simp] theorem commandWrite_flags (bank : Bank) (a : Nat) (w : Word) (s : State) :
    (commandWrite bank a w s).buf.fetch = s.buf.fetch ∧ (commandWrite bank a w s).store.scrub = s.store.scrub ∧
    (commandWrite bank a w s).store.log = s.store.log ∧
    (commandWrite bank a w s).store.activatePending = s.store.activatePending := by
  simp only [commandWrite, writeThrough_frame, Store.writeWord_frame, and_true]
  unfold writeThrough
  split
  · rfl
  · split <;> rfl

/-- What a run of command writes leaves alone: all that a reply and the anchors rest on. -/
@[simp] theorem commandWrites_frame (bank : Bank) (a : Nat) (ws : List Word) (s : State) :
    (commandWrites bank a ws s).eng = s.eng ∧ (commandWrites bank a ws s).ret = s.ret ∧
    (commandWrites bank a ws s).mon = s.mon ∧ (commandWrites bank a ws s).key = s.key ∧
    (commandWrites bank a ws s).life = s.life ∧ (commandWrites bank a ws s).store.log = s.store.log ∧
    (commandWrites bank a ws s).store.activatePending = s.store.activatePending := by
  induction ws generalizing a s with
  | nil => simp [commandWrites]
  | cons w ws ih => simp [commandWrites, ih]

/-- A command write does not look at the engine. -/
theorem commandWrite_withEng (bank : Bank) (a : Nat) (w : Word) (s : State) (e : Engine) :
    commandWrite bank a w { s with eng := e } = { commandWrite bank a w s with eng := e } := by
  simp only [commandWrite, writeThrough]
  split
  · rfl
  · split <;> rfl

theorem commandWrites_withEng (bank : Bank) (a : Nat) (ws : List Word) (s : State) (e : Engine) :
    commandWrites bank a ws { s with eng := e } = { commandWrites bank a ws s with eng := e } := by
  induction ws generalizing a s with
  | nil => rfl
  | cons w ws ih => rw [commandWrites, commandWrite_withEng, ih, commandWrites]

/-- The state with another command in hand, or none. -/
def State.withHand (s : State) (j : Option Job) : State := { s with eng.inHand := j }

theorem commandWrites_withHand (bank : Bank) (a : Nat) (ws : List Word) (s : State) (j : Option Job) :
    commandWrites bank a ws (s.withHand j) = (commandWrites bank a ws s).withHand j := by
  rw [State.withHand, commandWrites_withEng, State.withHand, (commandWrites_frame bank a ws s).1]

/-! ### The run of a NODE WRITE (R92, R95) -/

/-- The part once a run has succeeded, before its reply: the base anchor advanced and nothing in hand. -/
def afterRun (run : Run) (s : State) : State := (advanceAnchor run true s).withHand none

/-- What was in hand is nothing to the run's end. -/
theorem afterRun_withHand (run : Run) (j : Option Job) (s : State) : afterRun run (s.withHand j) = afterRun run s := by
  simp only [afterRun, advanceAnchor, State.withHand, Engine.setAnchor, Engine.anchor]
  repeat' split
  all_goals rfl

/-- A run that has succeeded leaves the store, the replies and what they show as they were. -/
theorem afterRun_frame (run : Run) (s : State) :
    (afterRun run s).store = s.store ∧ (afterRun run s).outbox = s.outbox ∧ (afterRun run s).summary = s.summary := by
  have hhold : (advanceAnchor run true s).eng.hold = s.eng.hold := by rw [advanceAnchor_eq]
  simp [afterRun, State.withHand, State.outbox, State.summary, hhold]

/-- A run of writes that has succeeded advances its base anchor unless the mode is NONE. -/
theorem anchor_afterRun (run : Run) {s : State} (hb : run.base ≤ s.eng.anchors.length) (i : Nat) :
    (afterRun run s).eng.anchor i =
      if i = run.base ∧ (s.eng.anchor i).mode ≠ .none then
        { s.eng.anchor i with value := (s.eng.anchor i).value + BitVec.ofNat 20 run.n }
      else s.eng.anchor i := by
  simp only [← AnchorMode.advances_write]
  exact anchor_advanceAnchor run true hb i

/-- No claim on the port but the engine's, and none to come from a commit. -/
structure State.PortFree (s : State) : Prop where
  powered : s.powered = true
  fetch : s.buf.fetch = none
  scrub : s.store.scrub = []
  commit : s.life.commit = none

theorem State.PortFree.engineGranted {s : State} (h : s.PortFree) : engineGranted s = true := by
  simp [Machine.engineGranted, fetchClaims, scrubClaims, commitHoldsPort, commitReads, h.fetch, h.scrub, h.commit]

theorem State.PortFree.withHand {s : State} (h : s.PortFree) (j : Option Job) : (s.withHand j).PortFree :=
  ⟨h.powered, h.fetch, h.scrub, h.commit⟩

theorem State.PortFree.commandWrite {s : State} {bank : Bank} {a : Nat} {w : Word} (h : s.PortFree) :
    (commandWrite bank a w s).PortFree :=
  ⟨by simp [h.powered], by simp [h.fetch], by simp [h.scrub], by simp [h.commit]⟩

/-- A granted access that is not the last writes its word. -/
theorem engineWordWrite_goesOn {s : State} {run : Run} {w v : Word} {ws : List Word} (h : s.PortFree)
    (hj : s.eng.inHand = some (.write run (w :: v :: ws))) :
    exec .engineWordWrite s = .next
      ((commandWrite run.bank run.next w s).withHand (some (.write { run with next := run.next + 1 } (v :: ws)))) := by
  simp only [exec, execEngineWordWrite]
  rw [event_powered s _ h.powered, h.engineGranted, hj]
  rfl

/-- The last granted access writes its word, and the command completes. -/
theorem engineWordWrite_last {s : State} {run : Run} {w : Word} (h : s.PortFree)
    (hj : s.eng.inHand = some (.write run [w])) :
    exec .engineWordWrite s = .next (post .engine run.tag 0x20 .done [addressWord (run.next + 1)]
      (afterRun run (commandWrite run.bank run.next w s))) := by
  simp only [exec, execEngineWordWrite]
  rw [event_powered s _ h.powered, h.engineGranted, hj]
  rfl

/-- A NODE WRITE in hand runs to its end in as many granted accesses as it has words. -/
theorem runAll_engineWordWrite {w : Word} {ws : List Word} {run : Run} {s : State} (h : s.PortFree)
    (hj : s.eng.inHand = some (.write run (w :: ws))) :
    runAll (List.replicate (w :: ws).length .engineWordWrite) s = .next
      (post .engine run.tag 0x20 .done [addressWord (run.next + (w :: ws).length)]
        (afterRun run (commandWrites run.bank run.next (w :: ws) s))) := by
  induction ws generalizing w run s with
  | nil => exact runAll_cons (engineWordWrite_last h hj)
  | cons v ws ih =>
    rw [List.length_cons, List.replicate_succ, runAll_cons (engineWordWrite_goesOn h hj),
      ih (h.commandWrite.withHand _) rfl, commandWrites_withHand, afterRun_withHand, Nat.add_assoc, Nat.add_comm 1]
    rfl

/-! ### NODE WRITE as a whole (R92, R94, R95) -/

/-- A bank of a canonical part is canonical. -/
theorem State.wf_words {s : State} (h : s.canonical = true) (bank : Bank) :
    Memory.wf .zero (s.store.words bank) = true := by
  simp only [State.canonical, Bool.and_eq_true] at h
  obtain ⟨⟨⟨⟨⟨ha, hb⟩, -⟩, -⟩, -⟩, -⟩ := h
  cases bank
  · exact ha
  · exact hb

theorem powered_of_canTake {s : State} {p : Packet} (h : s.canTake p = true) : s.powered = true := by
  simp only [State.canTake, engineReady, Bool.and_eq_true] at h
  obtain ⟨⟨-, ⟨⟨⟨hp, -⟩, -⟩, -⟩⟩, -⟩ := h
  exact hp

/-- A run of command writes leaves the replies and what they show as they were. -/
theorem commandWrites_replies (bank : Bank) (a : Nat) (ws : List Word) (s : State) :
    (commandWrites bank a ws s).outbox = s.outbox ∧ (commandWrites bank a ws s).summary = s.summary := by
  simp [State.outbox, State.summary]

/-- The run of an accepted NODE WRITE: the physical bank and the effective address of the moment it is taken. -/
def writeRun (tag : Byte) (w : Word) (ws : List Word) (role : Role) (s : State) : Run :=
  ⟨tag, s.store.bankOf role, bits w 29 27, ws.length, (effectiveAddress s.eng w).toNat⟩

/-- The state in which an accepted NODE WRITE posts its reply: its words written, its anchor advanced. -/
def landed (tag : Byte) (w : Word) (ws : List Word) (role : Role) (s : State) : State :=
  let run := writeRun tag w ws role s
  afterRun run (commandWrites run.bank run.next ws s.taken)

section

variable {s : State} {tag : Byte} {w : Word} {ws : List Word} {role : Role}

/-- NODE WRITE accepted with at least one word is in hand. -/
theorem nodeWrite_accepted (ht : s.canTake ⟨tag, 0x20, w :: ws⟩ = true) (hl : s.life.lifecycle = .factory)
    (hold : s.eng.hold = none) (hr : roleOf w = some role) (ha : role = .load → s.store.activatePending = false)
    (hne : ws ≠ []) (hend : (effectiveAddress s.eng w).toNat + ws.length ≤ 786432) :
    exec (.nodeWrite tag (w :: ws)) s = .next (s.taken.withHand (some (.write (writeRun tag w ws role s) ws))) := by
  have hrun : runTooLong (effectiveAddress s.taken.eng (word (w :: ws) 0)).toNat ws.length = false :=
    runTooLong_false (.inr hend)
  rw [nodeWrite_named ht (gateRefusal_factory s.taken .change hl hold nofun nofun) hr,
    testedRun_runs (p := ⟨tag, 0x20, w :: ws⟩) (s := s.taken) hrun ha, if_neg (by simpa using hne)]
  rfl

/-- An accepted NODE WRITE and as many granted accesses as it has words end with its reply. -/
theorem runAll_nodeWrite (hacc : exec (.nodeWrite tag (w :: ws)) s =
      .next (s.taken.withHand (some (.write (writeRun tag w ws role s) ws))))
    (hfree : s.taken.PortFree) (hne : ws ≠ []) :
    runAll (.nodeWrite tag (w :: ws) :: List.replicate ws.length .engineWordWrite) s = .next
      (post .engine tag 0x20 .done [addressWord ((effectiveAddress s.eng w).toNat + ws.length)]
        (landed tag w ws role s)) := by
  obtain ⟨v, vs, rfl⟩ := List.exists_cons_of_ne_nil hne
  rw [runAll_cons hacc, runAll_engineWordWrite (hfree.withHand _) rfl, commandWrites_withHand, afterRun_withHand]
  rfl

theorem landed_inHand : (landed tag w ws role s).eng.inHand = none := rfl

theorem landed_replies :
    (landed tag w ws role s).outbox = s.outbox ∧ (landed tag w ws role s).summary = s.summary := by
  obtain ⟨-, houtbox, hsummary⟩ := afterRun_frame (writeRun tag w ws role s)
    (commandWrites (s.store.bankOf role) (effectiveAddress s.eng w).toNat ws s.taken)
  obtain ⟨houtbox', hsummary'⟩ :=
    commandWrites_replies (s.store.bankOf role) (effectiveAddress s.eng w).toNat ws s.taken
  exact ⟨houtbox.trans houtbox', hsummary.trans hsummary'⟩

theorem landed_store : (landed tag w ws role s).store =
    (commandWrites (s.store.bankOf role) (effectiveAddress s.eng w).toNat ws s.taken).store :=
  (afterRun_frame _ _).1

theorem anchor_landed (hlen : s.eng.anchors.length = 7) (i : Nat) :
    (landed tag w ws role s).eng.anchor i =
      if i = bits w 29 27 ∧ (s.eng.anchor i).mode ≠ .none then
        { s.eng.anchor i with value := (s.eng.anchor i).value + BitVec.ofNat 20 ws.length }
      else s.eng.anchor i := by
  have heng : (commandWrites (s.store.bankOf role) (effectiveAddress s.eng w).toNat ws s.taken).eng = s.taken.eng :=
    (commandWrites_frame ..).1
  have hbase : bits w 29 27 ≤ s.taken.eng.anchors.length := hlen ▸ bits_le_seven
  have hanchor := anchor_afterRun (writeRun tag w ws role s) (heng ▸ hbase) i
  rw [heng] at hanchor
  exact hanchor

end

/-- Settles O28. -/
theorem nodeWriteLands : Obligations.NodeWriteLands := by
  intro tag w ws role s hcan hr ht hl hold ha hfetch hscrub hcommit hlen hne hend ea bank
  have hfree : s.taken.PortFree := ⟨powered_of_canTake (s := s) ht, hfetch, hscrub, hcommit⟩
  have hwf : Memory.wf .zero (s.taken.store.words bank) = true := State.wf_words hcan bank
  obtain ⟨hout, hframe⟩ := post_spec (landed tag w ws role s) .engine tag 0x20 .done [addressWord (ea + ws.length)]
  refine ⟨_, runAll_nodeWrite (nodeWrite_accepted ht hl hold hr ha hne hend) hfree hne, ?_⟩
  rw [hout, hframe]
  refine ⟨fun i v hv => ?_, fun o a houtside => ?_, landed_inHand, anchor_landed hlen, ?_⟩
  · rw [landed_store]
    exact wordAt_commandWrites_in hwf hv
  · rw [landed_store]
    exact wordAt_commandWrites_out hwf houtside
  · rw [landed_replies.1, landed_replies.2]
    rfl

end Sys2Proof.Machine
end

section
/-! SUPPORT. The command engine's tests over every command: steps 1 to 3 of R148 by the command's row of Table 46, then
the length; and STATUS, RELEASE and codes that name no command. -/

namespace Sys2Proof

/-- The row of Table 46 that a station command stands in. An event stands in none, and nothing is said of its row. -/
def Instr.gate : Instr → Machine.Gate
  | .status _ _ => .status
  | .commitAbort _ _ => .abort
  | .anchorSet _ _ => .anchor
  | .nodeWrite _ _ | .nodeFill _ _ | .geometrySet _ _ | .activate _ _ | .pipeSet _ _ | .profileWrite _ _
  | .regionSelect _ _ | .keyOpen _ _ | .keyData _ _ | .keyLock _ _ | .keyAbandon _ _ => .change
  | .commit _ _ => .commit
  | .reopen _ _ => .reopen
  | _ => .plain

theorem Instr.gate_changes (c : Instr) : c.gate.changes = c.changes := by cases c <;> rfl

/-- The rows of Table 46 that hold one command. -/
theorem Instr.of_gate (c : Instr) :
    (c.gate = .status → ∃ tag l, c = .status tag l) ∧ (c.gate = .anchor → ∃ tag l, c = .anchorSet tag l) ∧
    (c.gate = .commit → ∃ tag l, c = .commit tag l) ∧ (c.gate = .reopen → ∃ tag l, c = .reopen tag l) := by
  cases c <;> simp [Instr.gate]

/-- A command whose first test of its own is LENGTH and that FACTORY serves stands in none of the rows that FACTORY
refuses. -/
theorem Instr.gate_of_fixedLength {c : Instr} {n : Nat} (h : c.fixedLength = some n) :
    c.gate ≠ .abort ∧ c.gate ≠ .reopen := by
  cases c <;> cases h <;> exact ⟨nofun, nofun⟩

namespace Machine

variable {s t : State} {c : Instr} {p : Packet} {g : Gate} {r : Reason}

/-! ### What steps 1 to 3 of R148 refuse -/

theorem gateRefusal_starting (hl : s.life.lifecycle = .starting) (hg : g ≠ .status) :
    gateRefusal g s = some .busy := by
  simp only [gateRefusal, hl, hg, if_true, if_false]

theorem gateRefusal_held (hl : s.life.lifecycle ≠ .starting) (hg : g.changes = true) (hold : s.eng.hold.isSome = true) :
    gateRefusal g s = some .held := by
  simp only [gateRefusal, hl, hg, hold, Bool.and_self, if_true, if_false]

/-- An engine that is not held is left with step 3 outside STARTING. -/
theorem gateRefusal_lifecycle (hl : s.life.lifecycle ≠ .starting) (hold : s.eng.hold = none) :
    gateRefusal g s = lifecycleRefusal g s.life.lifecycle := by
  simp only [gateRefusal, hl, hold, Option.isSome_none, Bool.and_false, Bool.false_eq_true, if_false]

theorem gateRefusal_status (s : State) : gateRefusal .status s = none := by
  unfold gateRefusal
  split
  · rfl
  · cases s.life.lifecycle <;> rfl

/-- COMMISSIONED refuses the commands that change state, but for ANCHOR SET and REOPEN. -/
theorem lifecycleRefusal_commissioned (hg : g.changes = true) (ha : g ≠ .anchor) (hr : g ≠ .reopen) :
    lifecycleRefusal g .commissioned = some .state := by
  cases g <;> simp_all [lifecycleRefusal, Gate.changes]

/-- COMMITTING refuses the commands that change state, but for COMMIT. -/
theorem lifecycleRefusal_committing (hg : g.changes = true) (hc : g ≠ .commit) :
    lifecycleRefusal g .committing = some .busy := by
  cases g <;> simp_all [lifecycleRefusal, Gate.changes]

/-- COMMIT ABORT is refused where no commit can be in progress. -/
theorem lifecycleRefusal_abort {l : Lifecycle} (hl : l = .factory ∨ l = .commissioned) :
    lifecycleRefusal .abort l = some .state := by
  obtain rfl | rfl := hl <;> rfl

/-! ### Commands refused -/

/-- What is left of a command that steps 1 to 3 of R148 refuse: its reply, and the hold that NODE WRITE and NODE FILL
enter without an effective address (R93). -/
def refusedAt (c : Instr) (p : Packet) (r : Reason) (s : State) : State :=
  if c.holds then refuseWrite p r none s.taken else refuse p r [] s.taken

theorem take_of_run {run : State → State} (ht : s.canTake p = true) (h : run s.taken = t) :
    take p run s = .next t :=
  (take_canTake s run ht).trans (congrArg _ h)

theorem tested_gated {tests : List (Bool × Reason)} {run : State → State} (hg : gateRefusal g s = some r) :
    tested p g tests run s = refuse p r [] s := by
  simp only [tested, refusal, hg]

/-- Every command that the engine takes is refused by steps 1 to 3 of R148 as its row of Table 46 says; a code that names
a command is none of UNKNOWN_CODE's (log 31). -/
theorem exec_gated (hp : c.packet = some p) (hw : c.gate = .plain → c.wf = true) (ht : s.canTake p = true)
    (hg : gateRefusal c.gate s.taken = some r) : exec c s = .next (refusedAt c p r s) := by
  cases c with
  | anchorSet tag l =>
    cases hp
    simp only [exec, execAnchorSet]
    exact take_of_run ht (by simp only [show gateRefusal .anchor s.taken = _ from hg]; rfl)
  | nodeWrite tag l =>
    cases hp
    simp only [exec, execNodeWrite]
    exact take_of_run ht (by simp only [show gateRefusal .change s.taken = _ from hg]; rfl)
  | nodeFill tag l =>
    cases hp
    simp only [exec, execNodeFill]
    exact take_of_run ht (by simp only [show gateRefusal .change s.taken = _ from hg]; rfl)
  | nodeRead tag l =>
    cases hp
    simp only [exec, execNodeRead]
    exact take_of_run ht (by simp only [show gateRefusal .plain s.taken = _ from hg]; rfl)
  | pipeSet tag l =>
    cases hp
    simp only [exec, execPipeSet]
    exact take_of_run ht (by simp only [show gateRefusal .change s.taken = _ from hg]; rfl)
  | unknownCode tag code l =>
    cases hp
    have hunknown := hw rfl
    simp only [Instr.wf, Bool.and_eq_true, Bool.not_eq_true'] at hunknown
    simp only [exec, execUnknownCode, hunknown.2, Bool.false_eq_true, if_false]
    exact take_of_run ht (tested_gated hg)
  | _ => cases hp <;> exact take_of_run ht (tested_gated hg)

/-- Refused by steps 1 to 3 of R148, a command posts its reply where it stands; NODE WRITE and NODE FILL enter hold
first, unless the engine is held (R93). -/
theorem answers_refusedAt (hold : c.holds = true → s.eng.hold = none) (hr : r ≠ .held) :
    answers (.next (refusedAt c p r s)) (if c.holds then s.heldBy p r none else s.taken) p.tag p.code (.refused r) [] := by
  unfold refusedAt
  cases hc : c.holds with
  | true => exact answers_refuseWrite (hold hc) hr
  | false => exact answers_post _ _ _ _ _ rfl

/-- A refusal with HELD enters nothing. -/
theorem refusedAt_held (c : Instr) (p : Packet) (s : State) : refusedAt c p .held s = refuse p .held [] s.taken := by
  unfold refusedAt refuseWrite
  split <;> rfl

/-- The commands whose first test of their own is LENGTH: a payload of another length is refused. -/
theorem exec_badLength {n : Nat} (hp : c.packet = some p) (hn : c.fixedLength = some n) (ht : s.canTake p = true)
    (hg : gateRefusal c.gate s.taken = none) (hne : p.payload.length ≠ n) :
    exec c s = .next (refuse p .length [] s.taken) := by
  have hfail : ∀ rest, firstFailing (lengthIs p n :: rest) = some .length := fun rest => by
    simp [firstFailing, lengthIs, hne]
  cases c <;> cases hn <;> cases hp <;> exact take_of_run ht (tested_refused hg (hfail _))

/-- Settles O16. -/
theorem engineTestsRefuse : Obligations.EngineTestsRefuse := by
  refine ⟨fun c p s hp hw hc ht hl => ?_, fun c p s hp hc ht hl hold => ?_, fun c p s hp ht hold => ?_,
    fun c p n s hp hn ht hl hold hne => ?_⟩
  · have hgate : gateRefusal c.gate s.taken = some .busy :=
      gateRefusal_starting hl fun h => (c.of_gate.1 h).elim fun tag ⟨l, he⟩ => hc tag l he
    rw [exec_gated hp (fun _ => hw) ht hgate]
    refine ⟨fun hh => ?_, fun hh hold => ?_⟩
    · rw [refusedAt, if_neg (by simp [hh])]
      exact answers_post _ _ _ _ _ rfl
    · rw [refusedAt, if_pos hh]
      exact answers_refuseWrite hold nofun
  · have hchanges : c.gate.changes = true := c.gate_changes.trans hc
    have hplain : c.gate ≠ .plain := fun h => by simp [h, Gate.changes] at hchanges
    rw [exec_gated hp (absurd · hplain) ht (gateRefusal_held hl hchanges hold), refusedAt_held]
    exact answers_post _ _ _ _ _ rfl
  · obtain ⟨-, hanchor, hcommit, hreopen⟩ := c.of_gate
    have hrefused : ∀ r, s.life.lifecycle ≠ .starting → lifecycleRefusal c.gate s.life.lifecycle = some r → r ≠ .held →
        answers (exec c s) (if c.holds then s.heldBy p r none else s.taken) p.tag p.code (.refused r) [] :=
      fun r hl hr hne => by
        have hplain : c.gate ≠ .plain := fun h => by simp [h, lifecycleRefusal] at hr
        rw [exec_gated hp (absurd · hplain) ht ((gateRefusal_lifecycle (s := s.taken) hl hold).trans hr)]
        exact answers_refusedAt (fun _ => hold) hne
    refine ⟨fun hl hc ha hr => ?_, fun hl hc hn => ?_, fun hl hc => ?_, fun hl hc => ?_⟩
    · refine hrefused .state (by simp [hl]) ?_ nofun
      rw [hl]
      exact lifecycleRefusal_commissioned (c.gate_changes.trans hc)
        (fun h => (hanchor h).elim fun tag ⟨l, he⟩ => ha tag l he)
        (fun h => (hreopen h).elim fun tag ⟨l, he⟩ => hr tag l he)
    · refine hrefused .busy (by simp [hl]) ?_ nofun
      rw [hl]
      exact lifecycleRefusal_committing (c.gate_changes.trans hc)
        (fun h => (hcommit h).elim fun tag ⟨l, he⟩ => hn tag l he)
    · obtain ⟨tag, l, rfl⟩ := hc
      exact hrefused .state (by simp [hl]) (by rw [hl]; rfl) nofun
    · obtain ⟨tag, l, rfl⟩ := hc
      exact hrefused .state (by obtain hl | hl := hl <;> simp [hl]) (lifecycleRefusal_abort hl) nofun
  · obtain ⟨habort, hreopen⟩ := Instr.gate_of_fixedLength hn
    rw [exec_badLength hp hn ht (gateRefusal_factory s.taken c.gate hl hold habort hreopen) hne]
    exact answers_post _ _ _ _ _ rfl

/-- Settles O17. -/
theorem engineCommandsAnswer : Obligations.EngineCommandsAnswer := by
  refine ⟨fun tag l s ht hlen => ?_, fun tag l s ht hlen hl => plain_answers ht hl (by simpa using hlen) rfl,
    fun tag code l s ht hcode hl => ?_⟩
  · have hstatus : exec (.status tag l) s = .next (done ⟨tag, 0x01, l⟩ (statusPayload s.life.lifecycle s.life.outcome
        s.eng.hold) s.taken) :=
      take_of_run ht (tested_runs (gateRefusal_status _) (by simp [firstFailing, lengthIs, hlen]))
    rw [hstatus]
    exact answers_post _ _ _ _ _ rfl
  · have hunknown : knownCode code = false := by simpa [knownCode] using hcode
    simp only [exec, execUnknownCode, hunknown, Bool.false_eq_true, if_false]
    rw [take_of_run ht (tested_refused (gateRefusal_plain _ hl) rfl)]
    exact answers_post _ _ _ _ _ rfl

end Machine
end Sys2Proof
end

section
/-! SUPPORT. The hold record stands, and a held engine changes none of the settings that R149 lists. -/

namespace Sys2Proof.Machine

variable {s t : State} {c : Instr} {p : Packet} {h : HoldRecord}

/-! ### What leaves the hold as it is -/

@[simp] theorem postRestart_hold (s : State) : (postRestart s).eng.hold = s.eng.hold := by
  unfold postRestart
  repeat' split
  all_goals simp

@[simp] theorem postKeyLock_hold (c : Completion) (n : Nat) (k : SlotState) (f : Nat) (s : State) :
    (postKeyLock c n k f s).eng.hold = s.eng.hold := by
  unfold postKeyLock
  split <;> simp

@[simp] theorem breakKeyLock_hold (n : Nat) (s : State) : (breakKeyLock n s).eng.hold = s.eng.hold := by
  simp [breakKeyLock]

@[simp] theorem endKeyLock_hold (n : Nat) (r : KeyRecord) (c : Completion) (f : Nat) (s : State) :
    (endKeyLock n r c f s).eng.hold = s.eng.hold := by simp [endKeyLock]

@[simp] theorem breakProgramming_hold (s : State) : (breakProgramming s).eng.hold = s.eng.hold := by
  unfold breakProgramming
  split <;> simp

@[simp] theorem cancelActivate_hold (s : State) : (cancelActivate s).eng.hold = s.eng.hold := by
  unfold cancelActivate
  repeat' split
  all_goals simp

@[simp] theorem completeActivate_hold (s : State) : (completeActivate s).eng.hold = s.eng.hold := by
  unfold completeActivate
  repeat' split
  all_goals simp

@[simp] theorem outputFrameStart_hold (free : Bool) (s : State) : (outputFrameStart free s).eng.hold = s.eng.hold := by
  simp [outputFrameStart_eq, startedFrame, State.numbered]

@[simp] theorem postCommit_hold (c : Completion) (l : List Word) (s : State) :
    (postCommit c l s).eng.hold = s.eng.hold := by
  unfold postCommit
  split <;> simp

@[simp] theorem commitStopped_hold (c : Commit) (w : CommitStop) (e : Bool) (s : State) :
    (commitStopped c w e s).eng.hold = s.eng.hold := by
  unfold commitStopped
  split <;> simp

@[simp] theorem commitSucceeds_hold (c : Commit) (s : State) : (commitSucceeds c s).eng.hold = s.eng.hold := by
  simp [commitSucceeds]

@[simp] theorem advanceAnchor_hold (r : Run) (w : Bool) (s : State) :
    (advanceAnchor r w s).eng.hold = s.eng.hold := by
  rw [advanceAnchor_eq]

@[simp] theorem completeRun_hold (r : Run) (c : Byte) (l : List Word) (s : State) :
    (completeRun r c l s).eng.hold = s.eng.hold := by simp [completeRun]

/-! ### A hold entered stands -/

/-- An engine that is held stays so where it would enter hold (R149). -/
theorem enterHold_of_held (hs : s.eng.hold = some h) (cause : HoldCause) (tag : Option Byte) (row a : Option Nat) :
    enterHold cause tag row a s = s := by simp [enterHold, hs]

theorem cutLine_of_held (hs : s.eng.hold = some h) (f : RxFrame) : cutLine f s = s := by
  unfold cutLine
  split <;> simp [enterHold_of_held hs]

theorem cutFrame_of_held (hs : s.eng.hold = some h) : (cutFrame s).eng.hold = some h := by
  unfold cutFrame
  split
  · exact hs
  · simp [cutLine_of_held hs, hs]

theorem lineFault_of_held (hs : s.eng.hold = some h) (row : Nat) (d : Decoder) :
    (lineFault row d s).eng.hold = some h := by
  have hset : (setDec { d with state := .skipping, bytes := [] } s).eng.hold = some h := by simpa using hs
  rwa [lineFault, enterHold_of_held hset]

theorem offerPacket_of_held (hs : s.eng.hold = some h) (p : Packet) (row : Nat) :
    (offerPacket p row s).eng.hold = some h := by
  unfold offerPacket
  split
  · exact hs
  · rwa [enterHold_of_held hs]

theorem decideHeader_of_held (hs : s.eng.hold = some h) (row : Nat) (l : List Byte) :
    (decideHeader row l s).eng.hold = some h := by
  unfold decideHeader
  dsimp only
  repeat' split
  · exact lineFault_of_held hs row _
  all_goals simpa using hs

theorem decidePacket_of_held (hs : s.eng.hold = some h) (row count consumed : Nat) (l : List Byte) :
    (decidePacket row count consumed l s).eng.hold = some h := by
  have hset : ∀ d, (setDec d s).eng.hold = some h := fun d => by simpa using hs
  unfold decidePacket
  dsimp only
  split
  · exact lineFault_of_held hs row _
  · split
    · exact hset _
    · split
      · exact lineFault_of_held hs row _
      · split
        · exact hset _
        · split
          · exact lineFault_of_held hs row _
          · exact offerPacket_of_held (hset _) _ row

theorem decodeByte_of_held (hs : s.eng.hold = some h) (x : Byte) : (decodeByte s x).eng.hold = some h := by
  unfold decodeByte
  split
  · exact hs
  · dsimp only
    repeat' split
    case h_3 => exact decidePacket_of_held hs ..
    case h_2.isFalse => exact decideHeader_of_held hs ..
    all_goals simpa using hs

theorem foldl_decodeByte_of_held (hs : s.eng.hold = some h) (l : List Byte) :
    (l.foldl decodeByte s).eng.hold = some h := by
  induction l generalizing s with
  | nil => exact hs
  | cons x l ih => exact ih (decodeByte_of_held hs x)

/-! ### Events -/

theorem event_of_held {run : State → State} (ht : event run s = .next t) (hs : s.eng.hold = some h)
    (hr : (run s).eng.hold = some h) : t.eng.hold = some h :=
  event_keeps (P := fun u => u.eng.hold = some h) ht hs hr

/-- The events of the frames leave a hold record as it is. -/
theorem ofFrames_of_held (hs : s.eng.hold = some h) (ht : exec c s = .next t) (hc : c.ofFrames = true) :
    t.eng.hold = some h := by
  cases c with
  | inputFrameStart now =>
    simp only [exec, execInputFrameStart] at ht
    exact event_of_held ht hs (by simpa using cutFrame_of_held hs)
  | rowEnd =>
    simp only [exec, execRowEnd] at ht
    refine event_of_held ht hs ?_
    repeat' split
    all_goals simp [cutLine_of_held hs, hs]
  | inputFrameEnd =>
    simp only [exec, execInputFrameEnd] at ht
    refine event_of_held ht hs ?_
    repeat' split
    · exact hs
    · exact cutFrame_of_held hs
    · simpa using hs
  | linkLoss => exact event_of_held ht hs (cutFrame_of_held hs)
  | pixelReceived r g b =>
    obtain rfl | ⟨f, -, rfl⟩ := pixelReceived_next ht
    · exact hs
    · exact foldl_decodeByte_of_held (s := countedPixel f r g b s) hs _
  | pixelProcess =>
    simp only [exec, execPixelProcess] at ht
    refine event_of_held ht hs ?_
    repeat' split
    all_goals simpa using hs
  | deadlineExpiry =>
    simp only [exec, execDeadlineExpiry] at ht
    refine event_of_held ht hs ?_
    split
    · exact hs
    · simpa using cutFrame_of_held hs
  | freeRunFrameEnd =>
    simp only [exec, execFreeRunFrameEnd] at ht
    refine event_of_held ht hs ?_
    split <;> simpa using hs
  | freeRunPixelSent =>
    simp only [exec, execFreeRunPixelSent] at ht
    refine event_of_held ht hs ?_
    repeat' split
    all_goals simpa using hs
  | _ => cases hc

/-- An event leaves a hold record as it is, where start-up does not begin. -/
theorem event_keeps_hold (hs : s.eng.hold = some h) (ht : exec c s = .next t) (hp : c.packet = none)
    (hu : c.startsUp s = false) : t.eng.hold = some h := by
  cases c with
  | inputFrameStart _ | rowEnd | inputFrameEnd | linkLoss | pixelReceived _ _ _ | pixelProcess | deadlineExpiry
  | freeRunFrameEnd | freeRunPixelSent => exact ofFrames_of_held hs ht rfl
  | powerRemoval m w l => exact event_of_held ht hs hs
  | storageFault bank a i =>
    simp only [exec, execStorageFault] at ht
    split at ht
    · cases ht
    · exact event_of_held ht hs hs
  | fetchWordRead => exact event_of_held ht hs (by simpa using hs)
  | scrubWriteBack | engineWordWrite | engineWordRead | commitReaderWord | flashOperationEnd _ _ | keyWordProgrammed _
  | keyVerifyEnd | keyArrayScanEnd | loaderWordWrite _ | startUpLoadEnd _ =>
    simp only [exec, execScrubWriteBack, execEngineWordWrite, execEngineWordRead, execCommitReaderWord,
      execFlashOperationEnd, execKeyWordProgrammed, execKeyVerifyEnd, execKeyArrayScanEnd, execLoaderWordWrite,
      execStartUpLoadEnd] at ht
    refine event_of_held ht hs ?_
    repeat' split
    all_goals simpa using hs
  | replyTransmissionEnd now =>
    simp only [exec, execReplyTransmissionEnd, event, Instr.startsUp] at ht hu
    split at ht <;> cases ht
    · repeat' split
      all_goals simp_all
    · exact hs
  | keyArrayStorageFault slot w i =>
    simp only [exec, execKeyArrayStorageFault] at ht
    repeat' split at ht
    all_goals cases ht
    all_goals exact hs
  | powerOn now => cases hu
  | _ => cases hp

/-! ### Commands -/

/-- The settings that no command taken while the engine is held changes, RESTART excepted (R149): node-plane words,
geometry records, bank roles, anchors, key slots, region profiles and selection, and the pending context. -/
def State.settings (s : State) :
    Memory StoredWord × Memory StoredWord × Option Geometry × Option Geometry × Bank × List Anchor × KeyUnit × Region ×
      PendingContext :=
  (s.store.bankA, s.store.bankB, s.store.geomA, s.store.geomB, s.store.active, s.eng.anchors, s.key, s.region,
    s.pipe.pending)

/-- The hold and the settings. -/
def State.kept (s : State) := (s.eng.hold, s.settings)

@[simp] theorem post_kept (w : Poster) (tag code : Byte) (c : Completion) (l : List Word) (s : State) :
    (post w tag code c l s).kept = s.kept := by
  simp [State.kept, State.settings]

@[simp] theorem refuse_kept (p : Packet) (r : Reason) (l : List Word) (s : State) :
    (refuse p r l s).kept = s.kept := post_kept ..

@[simp] theorem done_kept (p : Packet) (l : List Word) (s : State) : (done p l s).kept = s.kept := post_kept ..

theorem take_kept {run : State → State} (ht : take p run s = .next t) (hr : ∀ u, (run u).kept = u.kept) :
    t.kept = s.kept := by
  obtain rfl | rfl := take_next s ht
  · exact hr (dequeue s)
  · rfl

theorem tested_kept {g : Gate} {tests : List (Bool × Reason)} {run : State → State} (hr : (run s).kept = s.kept) :
    (tested p g tests run s).kept = s.kept := by
  obtain ⟨r, -, heq⟩ | ⟨-, heq⟩ := tested_spec s p g tests run <;> rw [heq]
  · exact refuse_kept p r [] s
  · exact hr

/-- A command that is tested and answers at once, in a state with the same hold and settings. -/
theorem take_tested_done_kept {g : Gate} {tests : List (Bool × Reason)} {l : State → List Word} {f : State → State}
    (ht : take p (tested p g tests fun u => done p (l u) (f u)) s = .next t) (hf : ∀ u, (f u).kept = u.kept) :
    t.kept = s.kept :=
  take_kept ht fun u => tested_kept (run := fun u => done p (l u) (f u)) ((done_kept ..).trans (hf u))

/-- A command that does not change state keeps the hold and the settings, but for RELEASE and RESTART. -/
theorem exec_kept (ht : exec c s = .next t) (hp : c.packet = some p) (hc : c.changes = false)
    (hrelease : ∀ tag l, c ≠ .release tag l) (hrestart : ∀ tag l, c ≠ .restart tag l) : t.kept = s.kept := by
  cases c with
  | status _ _ | anchorRead _ _ | logRead _ _ | logClear _ _ | pipeRead _ _ | windowSet _ _ | reportRead _ _
  | conditionsRead _ _ | captureRead _ _ | captureClear _ _ | profileRead _ _ | keyQuery _ _ =>
    exact take_tested_done_kept ht fun _ => rfl
  | nodeRead tag l =>
    simp only [exec, execNodeRead] at ht
    refine take_kept ht fun u => ?_
    repeat' split
    case h_3.isFalse.isFalse.isFalse => rfl
    all_goals exact refuse_kept ..
  | geometryRead tag l =>
    simp only [exec, execGeometryRead] at ht
    refine take_kept ht fun u => tested_kept ?_
    split
    · exact refuse_kept ..
    · exact done_kept ..
  | commitAbort tag l =>
    simp only [exec, execCommitAbort] at ht
    refine take_kept ht fun u => tested_kept ?_
    split
    · exact done_kept ..
    · rfl
  | unknownCode tag code l =>
    simp only [exec, execUnknownCode] at ht
    split at ht
    · cases ht
    · exact take_kept ht fun u => tested_kept rfl
  | release tag l => exact absurd rfl (hrelease tag l)
  | restart tag l => exact absurd rfl (hrestart tag l)
  | anchorSet _ _ | nodeWrite _ _ | nodeFill _ _ | geometrySet _ _ | activate _ _ | pipeSet _ _ | profileWrite _ _
  | regionSelect _ _ | keyOpen _ _ | keyData _ _ | keyLock _ _ | keyAbandon _ _ | commit _ _ | reopen _ _ => cases hc
  | _ => cases hp

theorem take_next_canTake {run : State → State} (ht : take p run s = .next t) : t = s ∨ s.canTake p = true := by
  obtain ⟨heq, -⟩ | ⟨-, hpayload, hready, hnext⟩ | ⟨heq, -⟩ := take_spec s p run
  · rw [heq] at ht
    cases ht
  · exact .inr (by simp only [State.canTake, hpayload, hready, hnext, Bool.and_self])
  · rw [heq] at ht
    cases ht
    exact .inl rfl

/-- A step of a station command takes its packet, or nothing changes. -/
theorem exec_next_canTake (hp : c.packet = some p) (ht : exec c s = .next t) : t = s ∨ s.canTake p = true := by
  cases c with
  | unknownCode tag code l =>
    cases hp
    simp only [exec, execUnknownCode] at ht
    split at ht
    · cases ht
    · exact take_next_canTake ht
  | anchorSet _ _ | nodeWrite _ _ | nodeRead _ _ | nodeFill _ _ | pipeSet _ _ | keyData _ _ | keyLock _ _
  | keyAbandon _ _ | commit _ _ =>
    cases hp
    simp only [exec, execAnchorSet, execNodeWrite, execNodeRead, execNodeFill, execPipeSet, execKeyData, execKeyLock,
      execKeyAbandon, execCommit] at ht
    exact take_next_canTake ht
  | _ => cases hp <;> exact take_next_canTake ht

/-- What is left of a refusal of a held engine. -/
theorem refusedAt_kept (hs : s.eng.hold = some h) (c : Instr) (p : Packet) (r : Reason) :
    (refusedAt c p r s).kept = s.kept := by
  have hs : s.taken.eng.hold = some h := hs
  unfold refusedAt refuseWrite
  rw [enterHold_of_held hs, ite_self, ite_self]
  exact refuse_kept ..

/-- A command that changes state is refused by a held engine, and keeps the hold and the settings (R148). -/
theorem changes_kept (hs : s.eng.hold = some h) (ht : exec c s = .next t) (hp : c.packet = some p)
    (hc : c.changes = true) : t.kept = s.kept := by
  obtain rfl | htake := exec_next_canTake hp ht
  · rfl
  have hchanges : c.gate.changes = true := c.gate_changes.trans hc
  have hrefused : ∃ r, gateRefusal c.gate s.taken = some r := by
    by_cases hl : s.life.lifecycle = .starting
    · exact ⟨_, gateRefusal_starting hl fun h => by simp [h, Gate.changes] at hchanges⟩
    · exact ⟨_, gateRefusal_held hl hchanges (by simp [State.taken, hs])⟩
  obtain ⟨r, hr⟩ := hrefused
  rw [exec_gated hp (fun h => by simp [h, Gate.changes] at hchanges) htake hr] at ht
  cases ht
  exact refusedAt_kept hs c p r

/-- RELEASE keeps the settings, and clears hold or leaves it. -/
theorem release_next {tag : Byte} {l : List Word} (ht : exec (.release tag l) s = .next t) :
    t.settings = s.settings ∧ (t.eng.hold = s.eng.hold ∨ t.eng.hold = none) := by
  obtain rfl | rfl := take_next s ht
  · obtain ⟨r, -, heq⟩ | ⟨-, heq⟩ := tested_spec (dequeue s) ⟨tag, 0x02, l⟩ .plain [lengthIs ⟨tag, 0x02, l⟩ 1] fun u =>
      done ⟨tag, 0x02, l⟩ (holdWords u.eng.hold) { u with eng.hold := none } <;> rw [heq]
    · have hkept := refuse_kept ⟨tag, 0x02, l⟩ r [] (dequeue s)
      exact ⟨congrArg Prod.snd hkept, .inl (congrArg Prod.fst hkept)⟩
    · have hkept := done_kept ⟨tag, 0x02, l⟩ (holdWords s.eng.hold) { dequeue s with eng.hold := none }
      exact ⟨congrArg Prod.snd hkept, .inr (congrArg Prod.fst hkept)⟩
  · exact ⟨rfl, .inl rfl⟩

theorem restart_hold {tag : Byte} {l : List Word} (ht : exec (.restart tag l) s = .next t) :
    t.eng.hold = s.eng.hold := by
  obtain rfl | rfl := take_next s ht
  · obtain ⟨r, -, heq⟩ | ⟨-, heq⟩ := tested_spec (dequeue s) ⟨tag, 0x03, l⟩ .plain [lengthIs ⟨tag, 0x03, l⟩ 1] fun u =>
      postRestart (breakCommit (breakProgramming (cancelActivate
        { u with eng.restarting := true, eng.holdRestart := some tag }))) <;> rw [heq]
    · simp [refuse, State.taken]
    · simp [State.taken]
  · rfl

/-- A station command that a held engine takes keeps the hold and the settings, but for RELEASE and RESTART. -/
theorem command_kept (hs : s.eng.hold = some h) (ht : exec c s = .next t) (hp : c.packet = some p)
    (hrelease : ∀ tag l, c ≠ .release tag l) (hrestart : ∀ tag l, c ≠ .restart tag l) : t.kept = s.kept := by
  cases hc : c.changes with
  | true => exact changes_kept hs ht hp hc
  | false => exact exec_kept ht hp hc hrelease hrestart

/-- Of the station commands RELEASE alone can end a hold. -/
theorem command_hold (hs : s.eng.hold = some h) (ht : exec c s = .next t) (hp : c.packet = some p) :
    t.eng.hold = some h ∨ t.eng.hold = none ∧ ∃ tag l, c = .release tag l := by
  by_cases hrelease : ∃ tag l, c = .release tag l
  · obtain ⟨tag, l, rfl⟩ := hrelease
    obtain ⟨-, hold⟩ := release_next ht
    exact hold.imp (·.trans hs) fun hnone => ⟨hnone, tag, l, rfl⟩
  by_cases hrestart : ∃ tag l, c = .restart tag l
  · obtain ⟨tag, l, rfl⟩ := hrestart
    exact .inl ((restart_hold ht).trans hs)
  · exact .inl ((congrArg Prod.fst (command_kept hs ht hp (fun tag l he => hrelease ⟨tag, l, he⟩)
      fun tag l he => hrestart ⟨tag, l, he⟩)).trans hs)

/-- Of the station commands RESTART alone can change a setting while the engine is held. -/
theorem command_settings (hs : s.eng.hold = some h) (ht : exec c s = .next t) (hp : c.packet = some p)
    (hrestart : ∀ tag l, c ≠ .restart tag l) : t.settings = s.settings := by
  by_cases hrelease : ∃ tag l, c = .release tag l
  · obtain ⟨tag, l, rfl⟩ := hrelease
    exact (release_next ht).1
  · exact congrArg Prod.snd (command_kept hs ht hp (fun tag l he => hrelease ⟨tag, l, he⟩) hrestart)

/-- Settles O12: start-up clears hold, no other event touches it, and of the commands only RELEASE clears it; a held
engine refuses the commands that change state, and no other but RESTART changes a setting. -/
theorem holdStands : Obligations.HoldStands := by
  refine ⟨fun c s t h hs ht => ?_, fun c p s t hp hrestart hheld ht => ?_⟩
  · cases hu : c.startsUp s with
    | true =>
      obtain ⟨now, u, rfl⟩ := startsUp_next ht hu
      exact .inr ⟨rfl, .inl rfl⟩
    | false =>
      cases hp : c.packet with
      | none => exact .inl (event_keeps_hold hs ht hp hu)
      | some p => exact (command_hold hs ht hp).imp_right fun ⟨hnone, hrelease⟩ => ⟨hnone, .inr hrelease⟩
  · obtain ⟨h, hs⟩ := Option.isSome_iff_exists.mp hheld
    have hsettings := command_settings hs ht hp hrestart
    simpa only [State.settings, Prod.mk.injEq] using hsettings

end Sys2Proof.Machine
end

section
/-! SUPPORT. Replies: how they enter the queue and wait, and which waiting reply a freed entry admits. -/

namespace Sys2Proof.Machine

variable {s : State}

/-! ### Replies offered (R152, R154, R163) -/

/-- A reply that finds room is the newest of the queue, and an IDLE lane begins to send. -/
theorem offer_ret_sends (w : Poster) (r : Reply) (h : hasRoom s = true) :
    (offer w r s).ret = { s.ret with
      queue := s.ret.queue ++ [r]
      lane := if s.ret.lane = .idle then .sending (credits s) else s.ret.lane } := by
  unfold offer
  rw [if_pos h]
  cases hl : s.ret.lane with
  | idle => cases s.ret.queue <;> simp [startLane, hl, credits]
  | sending n => simp [startLane, hl]

theorem blockFree_iff (w : Poster) (s : State) :
    blockFree w s = true ↔ (∀ x ∈ s.ret.waiting, x.poster ≠ w) ∧ ∀ x ∈ s.ret.later, x.poster ≠ w := by
  simp [blockFree]

/-! ### The first member that a test picks -/

section

variable {α : Type} {p : α → Bool} {a b l rest : List α} {x : α}

/-- What is picked stands behind members that the test does not pick. -/
theorem takeFirst_split (h : takeFirst p l = some (x, rest)) :
    ∃ a b, l = a ++ x :: b ∧ rest = a ++ b ∧ p x = true ∧ ∀ y ∈ a, p y = false := by
  induction l generalizing rest with
  | nil => cases h
  | cons y l ih =>
    unfold takeFirst at h
    split at h
    · next hy =>
      cases h
      exact ⟨[], l, rfl, rfl, hy, nofun⟩
    · next hy =>
      obtain ⟨⟨z, rest'⟩, hz, heq⟩ := Option.map_eq_some_iff.mp h
      cases heq
      obtain ⟨a, b, rfl, rfl, hx, ha⟩ := ih hz
      exact ⟨y :: a, b, rfl, rfl, hx, List.forall_mem_cons.mpr ⟨by simpa using hy, ha⟩⟩

theorem takeFirst_append (ha : ∀ y ∈ a, p y = false) (hx : p x = true) :
    takeFirst p (a ++ x :: b) = some (x, a ++ b) := by
  induction a with
  | nil => simp [takeFirst, hx]
  | cons y a ih =>
    obtain ⟨hy, ha⟩ := List.forall_mem_cons.mp ha
    simp [takeFirst, hy, ih ha]

theorem takeFirst_of_none (h : ∀ y ∈ l, p y = false) : takeFirst p l = none := by
  induction l with
  | nil => rfl
  | cons y l ih =>
    obtain ⟨hy, hl⟩ := List.forall_mem_cons.mp h
    simp [takeFirst, hy, ih hl]

end

/-! ### Admission by rank (R153) -/

/-- Of the replies that wait, `w` is the one a freed entry admits, the first of its block, and no block that has one
waiting ranks above that block. -/
structure Admits (l : List Waiter) (w : Waiter) (r : List Waiter) : Prop where
  first : ∀ v ∈ l, v.poster ≠ w.poster
  store : ∀ v ∈ l ++ r, v.poster = .store → w.poster = .store
  key : ∀ v ∈ l ++ r, v.poster = .key → w.poster = .store ∨ w.poster = .key
  life : ∀ v ∈ l ++ r, v.poster = .life → w.poster ≠ .engine

theorem takeWaiter_split {w : Poster} {ws rest : List Waiter} {v : Waiter} (h : takeWaiter w ws = some (v, rest)) :
    ∃ l r, ws = l ++ v :: r ∧ rest = l ++ r ∧ v.poster = w ∧ ∀ x ∈ l, x.poster ≠ w := by
  rw [takeWaiter_eq] at h
  obtain ⟨l, r, hws, hrest, hv, hl⟩ := takeFirst_split h
  exact ⟨l, r, hws, hrest, by simpa using hv, by simpa using hl⟩

/-- The arbiter admits the first reply of the block of the highest rank that has one waiting. -/
theorem nextWaiter_admits {ws rest : List Waiter} {w : Waiter} (h : nextWaiter ws = some (w, rest)) :
    ∃ l r, ws = l ++ w :: r ∧ rest = l ++ r ∧ Admits l w r := by
  have habsent : ∀ {b : Poster}, takeWaiter b ws = none → ∀ {l r}, ws = l ++ w :: r → ∀ v ∈ l ++ r, v.poster ≠ b :=
    fun hb l r hws v hv => takeWaiter_none hb (hws ▸ List.mem_append.mpr
      ((List.mem_append.mp hv).imp_right (List.mem_cons_of_mem w)))
  unfold nextWaiter at h
  split at h
  · next hstore =>
    cases h
    obtain ⟨l, r, hws, hrest, hw, hl⟩ := takeWaiter_split hstore
    exact ⟨l, r, hws, hrest, hw ▸ hl, fun _ _ _ => hw, fun _ _ _ => .inl hw, fun _ _ _ => by simp [hw]⟩
  · next hstore hkey =>
    cases h
    obtain ⟨l, r, hws, hrest, hw, hl⟩ := takeWaiter_split hkey
    exact ⟨l, r, hws, hrest, hw ▸ hl, fun v hv hs => absurd hs (habsent hstore hws v hv), fun _ _ _ => .inr hw,
      fun _ _ _ => by simp [hw]⟩
  · next hstore hkey hlife =>
    cases h
    obtain ⟨l, r, hws, hrest, hw, hl⟩ := takeWaiter_split hlife
    exact ⟨l, r, hws, hrest, hw ▸ hl, fun v hv hs => absurd hs (habsent hstore hws v hv),
      fun v hv hk => absurd hk (habsent hkey hws v hv), fun _ _ _ => by simp [hw]⟩
  · next hstore hkey hlife =>
    obtain ⟨l, r, hws, hrest, hw, hl⟩ := takeWaiter_split h
    exact ⟨l, r, hws, hrest, hw ▸ hl, fun v hv hs => absurd hs (habsent hstore hws v hv),
      fun v hv hk => absurd hk (habsent hkey hws v hv), fun v hv hf => absurd hf (habsent hlife hws v hv)⟩

/-- The state in which a waiting reply has entered the queue and `others` go on waiting. -/
def State.admitting (s : State) (w : Waiter) (others : List Waiter) : State :=
  { s with ret := { s.ret with queue := s.ret.queue ++ [w.reply], waiting := others } }

@[simp] theorem State.admitting_frame (s : State) (w : Waiter) (others : List Waiter) :
    (s.admitting w others).eng = s.eng ∧ (s.admitting w others).ret.later = s.ret.later := ⟨rfl, rfl⟩

/-- A freed entry admits one of the replies that wait, and its block posts the next it has. -/
theorem admitWaiter_admits (hroom : s.ret.queue.length < 64) (hwait : s.ret.waiting ≠ []) :
    ∃ l w r, s.ret.waiting = l ++ w :: r ∧ Admits l w r ∧
      admitWaiter s = postNext w.poster (s.admitting w (l ++ r)) := by
  cases hnext : nextWaiter s.ret.waiting with
  | none => exact absurd (nextWaiter_none hnext) hwait
  | some found =>
    obtain ⟨w, rest⟩ := found
    obtain ⟨l, r, hws, rfl, hadmits⟩ := nextWaiter_admits hnext
    refine ⟨l, w, r, hws, hadmits, ?_⟩
    unfold admitWaiter
    rw [hnext]
    exact if_pos hroom

end Sys2Proof.Machine
end

section
/-! SUPPORT. What a block posts once its waiting reply has been admitted, and the end of a transmission. -/

namespace Sys2Proof.Machine

variable {s : State}

/-! ### What a block posts next (R138, R147, R153; log 24) -/

theorem postNext_of_none {w : Poster} (h : ∀ x ∈ s.ret.later, x.poster ≠ w) : postNext w s = s := by
  unfold postNext
  rw [takePost_eq, takeFirst_of_none (by simpa using h)]

/-- The first reply that a block has still to post is posted; that of the lifecycle controller may let a COMMIT ABORT
complete. -/
theorem postNext_of_some {w : Poster} {a b : List Post} {x : Post} (hlater : s.ret.later = a ++ x :: b)
    (ha : ∀ y ∈ a, y.poster ≠ w) (hx : x.poster = w) :
    postNext w s = if w = .life then
        completeAbort (post w x.tag x.code x.completion x.payload { s with ret.later := a ++ b })
      else post w x.tag x.code x.completion x.payload { s with ret.later := a ++ b } := by
  unfold postNext
  rw [hlater, takePost_eq, takeFirst_append (by simpa using ha) (by simpa using hx)]

/-- The completion of a COMMIT ABORT touches the return path and the command in hand alone. -/
theorem completeAbort_eq (s : State) :
    completeAbort s = { s with ret := (completeAbort s).ret, eng.inHand := (completeAbort s).eng.inHand } := by
  obtain ⟨tag, -, -, -, heq⟩ | ⟨heq, -⟩ := completeAbort_spec s <;> rw [heq]
  have hpost := (post_spec { s with eng.inHand := none } .engine tag 0x81 .done []).2
  rw [hpost]

@[simp] theorem post_later (w : Poster) (tag code : Byte) (c : Completion) (l : List Word) (s : State) :
    (post w tag code c l s).ret.later = s.ret.later := offer_later ..

@[simp] theorem completeAbort_later (s : State) : (completeAbort s).ret.later = s.ret.later := by
  obtain ⟨tag, -, -, -, heq⟩ | ⟨heq, -⟩ := completeAbort_spec s <;> simp [heq]

/-- A COMMIT ABORT waits for its COMMIT's reply: to leave its holder, and to be posted. -/
theorem completeAbort_of_waiting (h : (∀ tag, s.eng.inHand ≠ some (.abort tag)) ∨ s.eng.holdCommit.isSome = true ∨
    ∃ y ∈ s.ret.later, y.poster = .life) : completeAbort s = s := by
  obtain ⟨tag, hhand, hcommit, hlater, -⟩ | ⟨heq, -⟩ := completeAbort_spec s
  · obtain h | h | ⟨y, hy, hlife⟩ := h
    · exact absurd hhand (h tag)
    · simp [hcommit] at h
    · exact absurd hlife (hlater y hy)
  · exact heq

theorem completeAbort_of_posted {tag : Byte} (hhand : s.eng.inHand = some (.abort tag)) (hcommit : s.eng.holdCommit = none)
    (hlater : ∀ y ∈ s.ret.later, y.poster ≠ .life) :
    completeAbort s = post .engine tag 0x81 .done [] { s with eng.inHand := none } := by
  obtain ⟨tag', hhand', -, -, heq⟩ | ⟨-, h⟩ := completeAbort_spec s
  · rw [hhand] at hhand'
    cases hhand'
    exact heq
  · obtain h | h | ⟨y, hy, hlife⟩ := h
    · exact absurd hhand (h tag)
    · simp [hcommit] at h
    · exact absurd hlife (hlater y hy)

/-- What a block's next reply leaves: the reply is the newest, or the one of a COMMIT ABORT that waited for it is
(R138, R153). -/
structure PostsNext (w : Poster) (s : State) (a b : List Post) (x : Post) (t : State) : Prop where
  frame : t = { s with ret := t.ret, eng.inHand := t.eng.inHand }
  later : t.ret.later = a ++ b
  posts : (∀ tag, s.eng.inHand ≠ some (.abort tag)) ∨ w ≠ .life ∨ s.eng.holdCommit.isSome = true ∨
      (∃ y ∈ b, y.poster = .life) →
    t.eng.inHand = s.eng.inHand ∧ t.outbox = s.outbox ++ [⟨x.tag, x.code, x.completion, s.summary, x.payload⟩]
  completes : ∀ tag, s.eng.inHand = some (.abort tag) → w = .life → s.eng.holdCommit = none →
    (∀ y ∈ b, y.poster ≠ .life) →
    t.eng.inHand = none ∧ t.outbox = s.outbox ++ [⟨x.tag, x.code, x.completion, s.summary, x.payload⟩] ++
      [⟨tag, 0x81, .done, s.summary, []⟩]

theorem postNext_posts {w : Poster} {a b : List Post} {x : Post} (hlater : s.ret.later = a ++ x :: b)
    (ha : ∀ y ∈ a, y.poster ≠ w) (hx : x.poster = w) : PostsNext w s a b x (postNext w s) := by
  rw [postNext_of_some hlater ha hx]
  obtain ⟨hposted, hframe⟩ := post_spec { s with ret.later := a ++ b } w x.tag x.code x.completion x.payload
  have hul := post_later w x.tag x.code x.completion x.payload { s with ret.later := a ++ b }
  generalize post w x.tag x.code x.completion x.payload { s with ret.later := a ++ b } = u at hposted hframe hul ⊢
  have hout : u.outbox = s.outbox ++ [⟨x.tag, x.code, x.completion, s.summary, x.payload⟩] := hposted
  have hu : u = { s with ret := u.ret } := hframe
  have heng : u.eng = s.eng := by rw [hu]
  have hsummary : u.summary = s.summary := by rw [hu]; rfl
  by_cases hw : w = .life
  · rw [if_pos hw]
    refine ⟨?_, by rw [completeAbort_later, hul], fun hwaits => ?_, fun tag hhand _ hcommit hb => ?_⟩
    · exact (completeAbort_eq u).trans (congrArg (fun v : State =>
        { v with ret := (completeAbort u).ret, eng.inHand := (completeAbort u).eng.inHand }) hu)
    · rw [completeAbort_of_waiting]
      · exact ⟨congrArg Engine.inHand heng, hout⟩
      · rw [heng, hul]
        exact hwaits.imp_right fun h => (h.resolve_left fun hne => hne hw).imp_right fun ⟨y, hy, hlife⟩ =>
          ⟨y, List.mem_append_right a hy, hlife⟩
    · have hnone : ∀ y ∈ u.ret.later, y.poster ≠ .life := by
        rw [hul]
        exact List.forall_mem_append.mpr ⟨hw ▸ ha, hb⟩
      have habort : (post .engine tag 0x81 .done [] { u with eng.inHand := none }).outbox =
          u.outbox ++ [⟨tag, 0x81, .done, u.summary, []⟩] := (post_spec ..).1
      rw [completeAbort_of_posted (heng ▸ hhand) (heng ▸ hcommit) hnone, habort, hsummary, hout]
      exact ⟨by simp, rfl⟩
  · rw [if_neg hw]
    exact ⟨by rw [hu], hul, fun _ => ⟨congrArg Engine.inHand heng, hout⟩, fun _ _ hlife => absurd hlife hw⟩

/-- Settles O15. -/
theorem repliesEnterByRank : Obligations.RepliesEnterByRank := by
  refine ⟨fun w r s => ⟨fun hroom hnone => ?_, fun hfull => ?_⟩,
    fun w tag code c l s => ⟨blockFree_iff w s, posts_postDeferred s w tag code c l⟩, fun s hroom hwait => ?_⟩
  · rw [offer_ret_sends w r (hasRoom_iff.mpr ⟨hroom, hnone⟩)]
    exact ⟨rfl, hnone, rfl⟩
  · have hno : hasRoom s = false := by
      rw [Bool.eq_false_iff, Ne, hasRoom_iff]
      exact fun ⟨hroom, hnone⟩ => hfull.elim (Nat.not_le.mpr hroom) (· hnone)
    rw [offer_ret_full w r hno]
    exact ⟨rfl, rfl, List.map_append⟩
  · obtain ⟨l, w, r, hws, hadmits, heq⟩ := admitWaiter_admits hroom hwait
    refine ⟨l, w, r, hws, hadmits.first, hadmits.store, hadmits.key, hadmits.life, fun hnone => ?_,
      fun a x b hlater ha hx => ?_⟩
    · exact heq.trans (postNext_of_none hnone)
    · have hposts := postNext_posts (s := s.admitting w (l ++ r)) hlater ha hx
      rw [← heq] at hposts
      exact ⟨hposts.frame, hposts.later, hposts.posts, hposts.completes⟩

/-! ### The end of a transmission (R142, R154, R163) -/

/-- The lane has a reply to send, and is IDLE or has just begun to send with the credits of this moment. -/
def State.AboutToSend (s : State) : Prop :=
  s.ret.queue ≠ [] ∧ (s.ret.lane = .idle ∨ s.ret.lane = .sending (credits s))

theorem State.AboutToSend.startLane (h : s.AboutToSend) : (startLane s).ret.lane = .sending (credits s) := by
  obtain ⟨hqueue, hidle | hsending⟩ := h
  · obtain ⟨r, rest, hq⟩ := List.exists_cons_of_ne_nil hqueue
    simp [Machine.startLane, hidle, hq]
  · simp [Machine.startLane, hsending]

theorem State.AboutToSend.post (h : s.AboutToSend) (w : Poster) (tag code : Byte) (c : Completion) (l : List Word) :
    (post w tag code c l s).AboutToSend := by
  have hcredits : credits (Machine.post w tag code c l s) = credits s := by simp [credits]
  obtain ⟨hqueue, hlane⟩ := h
  unfold State.AboutToSend
  rw [hcredits]
  unfold Machine.post
  cases hroom : hasRoom s with
  | true =>
    rw [offer_ret_sends w _ hroom]
    refine ⟨by simp, .inr ?_⟩
    obtain hidle | hsending := hlane
    · exact if_pos hidle
    · dsimp only
      rw [if_neg (by simp [hsending]), hsending]
  | false =>
    rw [offer_ret_full w _ hroom]
    exact ⟨hqueue, hlane⟩

theorem State.AboutToSend.completeAbort (h : s.AboutToSend) : (completeAbort s).AboutToSend := by
  obtain ⟨tag, -, -, -, heq⟩ | ⟨heq, -⟩ := completeAbort_spec s <;> rw [heq]
  · exact State.AboutToSend.post (s := { s with eng.inHand := none }) h ..
  · exact h

theorem State.AboutToSend.postNext (h : s.AboutToSend) {w : Poster} {a b : List Post} {x : Post}
    (hlater : s.ret.later = a ++ x :: b) (ha : ∀ y ∈ a, y.poster ≠ w) (hx : x.poster = w) :
    (postNext w s).AboutToSend := by
  rw [postNext_of_some hlater ha hx]
  have hposted := State.AboutToSend.post (s := { s with ret.later := a ++ b }) h w x.tag x.code x.completion x.payload
  split
  · exact hposted.completeAbort
  · exact hposted

/-- The state in which the reply sent has left the queue and the lane is IDLE. -/
def State.replySent (s : State) (rest : List Reply) : State :=
  { s with ret := { s.ret with queue := rest, lane := .idle } }

@[simp] theorem State.replySent_frame (s : State) (rest : List Reply) :
    (s.replySent rest).eng = s.eng ∧ (s.replySent rest).ret.later = s.ret.later ∧
    (s.replySent rest).ret.waiting = s.ret.waiting := ⟨rfl, rfl, rfl⟩

/-- The end of a transmission that is not the RESTART reply's. -/
theorem replyTransmissionEnd_eq {now credits : Nat} {r : Reply} {rest : List Reply} (hp : s.powered = true)
    (hl : s.ret.lane = .sending credits) (hq : s.ret.queue = r :: rest) (hr : r.isRestart = false) :
    exec (.replyTransmissionEnd now) s = .next (startLane (postRestart (admitWaiter (s.replySent rest)))) := by
  simp only [exec, execReplyTransmissionEnd]
  rw [event_powered s _ hp]
  simp [hl, hq, hr, State.replySent]

theorem replyTransmissionEnd_restart {now credits : Nat} {r : Reply} {rest : List Reply} (hp : s.powered = true)
    (hl : s.ret.lane = .sending credits) (hq : s.ret.queue = r :: rest) (hr : r.isRestart = true) :
    exec (.replyTransmissionEnd now) s = .next (startUpBegin now s) := by
  simp only [exec, execReplyTransmissionEnd]
  rw [event_powered s _ hp]
  simp [hl, hq, hr]

theorem startLane_eq (s : State) : startLane s = { s with ret.lane := (startLane s).ret.lane } := by
  unfold startLane
  split <;> rfl

theorem startLane_of_idle (h : s.ret.lane = .idle) :
    startLane s = { s with ret.lane := if s.ret.queue = [] then .idle else .sending (credits s) } := by
  rw [startLane_eq]
  cases hq : s.ret.queue <;> simp [startLane, h, hq]

theorem admitWaiter_of_none (h : s.ret.waiting = []) : admitWaiter s = s := by
  simp [admitWaiter, h, nextWaiter, takeWaiter]

theorem postRestart_of_none (h : s.eng.holdRestart = none) : postRestart s = s := by
  simp [postRestart, h]

/-- The RESTART reply is posted once nothing is owed, waits or has still to be posted (R142). -/
theorem postRestart_posts {tag : Byte} (h : s.eng.holdRestart = some tag) (ha : s.eng.holdActivate = none)
    (hk : s.eng.holdKeyLock = none) (hc : s.eng.holdCommit = none) (hw : s.ret.waiting = []) (hl : s.ret.later = []) :
    postRestart s = post .life tag 0x03 .done [] { s with eng.holdRestart := none } := by
  have hfree : blockFree .life { s with eng.holdRestart := none } = true := by
    rw [blockFree_iff]
    exact ⟨fun x hx => by simp [hw] at hx, fun x hx => by simp [hl] at hx⟩
  have hposts : postRestart s = postDeferred .life tag 0x03 .done [] { s with eng.holdRestart := none } := by
    simp only [postRestart, h, ha, hk, hc, hw, hl, Option.isNone_none, List.all_nil, Bool.and_self, if_true]
  rw [hposts, postDeferred, if_pos hfree]

/-- The lane's start changes nothing of what a block's next reply leaves. -/
theorem PostsNext.startLane {w : Poster} {a b : List Post} {x : Post} {t : State} (h : PostsNext w s a b x t) :
    PostsNext w s a b x (startLane t) := by
  have heng : (Machine.startLane t).eng = t.eng := by simp
  refine ⟨?_, ?_, fun hwaits => ?_, fun tag hhand hlife hcommit hb => ?_⟩
  · rw [startLane_eq, h.frame]
  · rw [startLane_eq]
    exact h.later
  · rw [startLane_outbox, heng]
    exact h.posts hwaits
  · rw [startLane_outbox, heng]
    exact h.completes tag hhand hlife hcommit hb

/-- A reply that has entered the emptied entry is about to be sent, or others before it are. -/
theorem admitting_aboutToSend (s : State) (rest : List Reply) (w : Waiter) (others : List Waiter) :
    ((s.replySent rest).admitting w others).AboutToSend :=
  ⟨by simp [State.admitting], .inl rfl⟩

/-- A waiting reply enters, and the next transmission begins. -/
theorem startLane_admitting (s : State) (rest : List Reply) (w : Waiter) (others : List Waiter) :
    startLane ((s.replySent rest).admitting w others) =
      { s with ret := ⟨rest ++ [w.reply], others, s.ret.later, .sending (credits s)⟩ } := by
  rw [startLane_of_idle rfl, if_neg (admitting_aboutToSend s rest w others).1]
  rfl

/-- The last reply owed enters, and the RESTART reply is posted behind it (R142). -/
theorem startLane_postRestart {tag : Byte} {rest : List Reply} {w : Waiter} (h : s.eng.holdRestart = some tag)
    (ha : s.eng.holdActivate = none) (hk : s.eng.holdKeyLock = none) (hc : s.eng.holdCommit = none)
    (hl : s.ret.later = []) :
    let t := startLane (postRestart ((s.replySent rest).admitting w []))
    t = { s with eng.holdRestart := none, ret := t.ret } ∧ t.ret.lane = .sending (credits s) ∧
      t.outbox = rest ++ [w.reply, ⟨tag, 0x03, .done, s.summary, []⟩] := by
  have hposts := postRestart_posts (s := (s.replySent rest).admitting w []) h ha hk hc rfl hl
  obtain ⟨hout, hframe⟩ :=
    post_spec { (s.replySent rest).admitting w [] with eng.holdRestart := none } .life tag 0x03 .done []
  have hsends := State.AboutToSend.post (s := { (s.replySent rest).admitting w [] with eng.holdRestart := none })
    (admitting_aboutToSend s rest w []) .life tag 0x03 .done []
  rw [← hposts] at hout hframe hsends
  refine ⟨?_, ?_, ?_⟩
  · rw [startLane_eq, hframe]
    rfl
  · rw [hsends.startLane, hframe]
    rfl
  · rw [startLane_outbox, hout]
    simp only [State.outbox, State.admitting, State.replySent, List.map_nil, List.append_nil, List.append_assoc]
    rfl

/-- Settles O44. -/
theorem transmissionEnds : Obligations.TransmissionEnds := by
  intro now n r rest s hp hl hq free
  have hend : r.isRestart = false → exec (.replyTransmissionEnd now) s =
      .next (startLane (postRestart (admitWaiter (s.replySent rest)))) := replyTransmissionEnd_eq hp hl hq
  refine ⟨fun hr hnone hrestart => ?_, fun hr hwait hroom => ?_, fun hcode hdone => ?_⟩
  · rw [hend hr, admitWaiter_of_none (by simpa using hnone), postRestart_of_none (by simpa using hrestart),
      startLane_of_idle rfl, ← hnone]
    rfl
  · obtain ⟨l, w, others, hws, hadmits, heq⟩ := admitWaiter_admits (s := s.replySent rest) hroom hwait
    refine ⟨l, w, others, hws, hadmits.first, hadmits.store, hadmits.key, hadmits.life, fun hrestart hlater => ?_,
      fun a x b hrestart hlater ha hx => ?_, fun tag hrestart hactivate hkey hcommit hlater hone => ?_⟩
    · rw [hend hr, heq, postNext_of_none (by simpa using hlater), postRestart_of_none (by simpa using hrestart),
        startLane_admitting]
      rfl
    · have hposts := (postNext_posts (s := (s.replySent rest).admitting w (l ++ others)) hlater ha hx).startLane
      have hlane := ((admitting_aboutToSend s rest w (l ++ others)).postNext hlater ha hx).startLane
      rw [hend hr, heq, postRestart_of_none (by simpa using hrestart)]
      exact ⟨_, rfl, hposts.frame, hposts.later, hlane.trans (by simp [credits, free, Config.commandQueueSize]),
        fun hwaits => hposts.posts (hwaits.imp_right .inl), hposts.completes⟩
    · obtain ⟨rfl, rfl⟩ : l = [] ∧ others = [] := by simpa [List.append_eq_singleton_iff] using hws.symm.trans hone
      rw [hend hr, heq, postNext_of_none (by simp [hlater])]
      exact ⟨_, rfl, startLane_postRestart hrestart hactivate hkey hcommit hlater⟩
  · exact ⟨replyTransmissionEnd_restart hp hl hq (by simp [Reply.isRestart, hcode, hdone]), rfl, rfl⟩

end Sys2Proof.Machine
end

section
/-! SUPPORT. Every command that can exist completes, with the sender's queue as it was; one that cannot faults. -/

namespace Sys2Proof.Machine

variable {s : State} {c : Instr} {p : Packet} {tag : Byte} {l : List Word}

/-- The outcome is a next state, with the sender's queue as in `s` (log 3). -/
def Completes (o : Answer) (s : State) : Prop := ∃ t, o = .next t ∧ t.pending = s.pending

theorem completes_next {t : State} (h : t.pending = s.pending) : Completes (.next t) s := ⟨t, rfl, h⟩

/-! ### Packets taken -/

/-- A packet that can exist is taken, or nothing changes. -/
theorem take_completes {run : State → State} (hp : payloadOk p.payload = true)
    (hr : ∀ u : State, (run u).pending = u.pending) : Completes (take p run s) s := by
  obtain ⟨-, hbad⟩ | ⟨h, -⟩ | ⟨h, -⟩ := take_spec s p run
  · simp [hp] at hbad
  · rw [h]
    exact completes_next (hr (dequeue s))
  · rw [h]
    exact completes_next rfl

theorem take_fault (run : State → State) (hp : payloadOk p.payload = false) :
    take p run s = .fault .noSuchPacket := by
  simp [take, hp]

@[simp] theorem done_pending (p : Packet) (l : List Word) (s : State) : (done p l s).pending = s.pending := by
  simp [done]

@[simp] theorem refuse_pending (p : Packet) (r : Reason) (l : List Word) (s : State) :
    (refuse p r l s).pending = s.pending := by
  simp [refuse]

@[simp] theorem refuseWrite_pending (p : Packet) (r : Reason) (a : Option Nat) (s : State) :
    (refuseWrite p r a s).pending = s.pending := by
  unfold refuseWrite
  split <;> simp

theorem tested_pending {g : Gate} {tests : List (Bool × Reason)} {run : State → State}
    (h : (run s).pending = s.pending) : (tested p g tests run s).pending = s.pending := by
  obtain ⟨r, -, hr⟩ | ⟨-, hr⟩ := tested_spec s p g tests run <;> rw [hr]
  · exact refuse_pending p r [] s
  · exact h

theorem testedRun_pending {role : Role} {n : Nat} {run : Bank → Nat → State → State}
    (h : ∀ bank ea, (run bank ea s).pending = s.pending) : (testedRun p role n run s).pending = s.pending := by
  unfold testedRun
  dsimp only
  repeat' split
  · exact refuseWrite_pending ..
  · exact refuseWrite_pending ..
  · exact h _ _

/-- A command that is tested and answers at once. -/
theorem take_tested_done_completes {g : Gate} {tests : List (Bool × Reason)} {w : State → List Word}
    {f : State → State} (hp : payloadOk p.payload = true) (hf : ∀ u : State, (f u).pending = u.pending) :
    Completes (take p (tested p g tests fun u => done p (w u) (f u)) s) s :=
  take_completes hp fun u => tested_pending (run := fun u => done p (w u) (f u)) ((done_pending ..).trans (hf u))

/-! ### Commands with a body of their own -/

theorem anchorSet_completes (hp : payloadOk l = true) : Completes (exec (.anchorSet tag l) s) s := by
  simp only [exec, execAnchorSet]
  refine take_completes hp fun u => ?_
  repeat' split
  all_goals simp

theorem nodeWrite_completes (hp : payloadOk l = true) : Completes (exec (.nodeWrite tag l) s) s := by
  simp only [exec, execNodeWrite]
  refine take_completes hp fun u => ?_
  split
  · exact refuseWrite_pending ..
  · exact refuseWrite_pending ..
  · refine testedRun_pending fun bank ea => ?_
    split
    · exact done_pending ..
    · rfl

theorem nodeFill_completes (hp : payloadOk l = true) : Completes (exec (.nodeFill tag l) s) s := by
  simp only [exec, execNodeFill]
  refine take_completes hp fun u => ?_
  split
  · exact refuseWrite_pending ..
  · exact refuseWrite_pending ..
  · split
    · exact refuseWrite_pending ..
    · refine testedRun_pending fun bank ea => ?_
      split
      · exact done_pending ..
      · rfl

theorem nodeRead_completes (hp : payloadOk l = true) : Completes (exec (.nodeRead tag l) s) s := by
  simp only [exec, execNodeRead]
  refine take_completes hp fun u => ?_
  repeat' split
  all_goals simp

theorem geometryRead_completes (hp : payloadOk l = true) : Completes (exec (.geometryRead tag l) s) s := by
  simp only [exec, execGeometryRead]
  refine take_completes hp fun u => tested_pending ?_
  split <;> simp

theorem pipeSet_completes (hp : payloadOk l = true) : Completes (exec (.pipeSet tag l) s) s := by
  simp only [exec, execPipeSet]
  refine take_completes hp fun u => ?_
  repeat' split
  all_goals simp

theorem regionSelect_completes (hp : payloadOk l = true) : Completes (exec (.regionSelect tag l) s) s := by
  simp only [exec, execRegionSelect]
  refine take_completes hp fun u => tested_pending ?_
  split <;> simp

theorem keyOpen_completes (hp : payloadOk l = true) : Completes (exec (.keyOpen tag l) s) s := by
  simp only [exec, execKeyOpen]
  refine take_completes hp fun u => tested_pending ?_
  repeat' split
  all_goals simp

theorem keyLock_completes (hp : payloadOk l = true) : Completes (exec (.keyLock tag l) s) s := by
  simp only [exec, execKeyLock]
  refine take_completes hp fun u => tested_pending ?_
  split <;> simp

theorem commit_completes (hp : payloadOk l = true) : Completes (exec (.commit tag l) s) s := by
  simp only [exec, execCommit]
  refine take_completes hp fun u => tested_pending ?_
  repeat' split
  all_goals simp

theorem commitAbort_completes (hp : payloadOk l = true) : Completes (exec (.commitAbort tag l) s) s := by
  simp only [exec, execCommitAbort]
  refine take_completes hp fun u => tested_pending ?_
  split <;> simp

theorem unknownCode_completes {code : Byte} (hp : payloadOk l = true) (hc : knownCode code = false) :
    Completes (exec (.unknownCode tag code l) s) s := by
  simp only [exec, execUnknownCode, hc, Bool.false_eq_true, if_false]
  exact take_completes hp fun u => tested_pending rfl

/-- Every station command that can exist completes. -/
theorem command_completes (hp : c.packet = some p) (hw : c.wf = true) : Completes (exec c s) s := by
  cases c with
  | anchorSet tag l => exact anchorSet_completes hw
  | nodeWrite tag l => exact nodeWrite_completes hw
  | nodeRead tag l => exact nodeRead_completes hw
  | nodeFill tag l => exact nodeFill_completes hw
  | geometryRead tag l => exact geometryRead_completes hw
  | pipeSet tag l => exact pipeSet_completes hw
  | regionSelect tag l => exact regionSelect_completes hw
  | keyOpen tag l => exact keyOpen_completes hw
  | keyLock tag l => exact keyLock_completes hw
  | commit tag l => exact commit_completes hw
  | commitAbort tag l => exact commitAbort_completes hw
  | restart tag l => exact take_completes hw fun u => tested_pending (by simp)
  | geometrySet _ _ | profileWrite _ _ => exact take_completes hw fun u => tested_pending (done_pending ..)
  | keyData _ _ | keyAbandon _ _ =>
    simp only [exec, execKeyData, execKeyAbandon]
    exact take_completes hw fun u => tested_pending (done_pending ..)
  | activate tag l => exact take_completes hw fun u => tested_pending rfl
  | unknownCode tag code l =>
    simp only [Instr.wf, Bool.and_eq_true, Bool.not_eq_true'] at hw
    exact unknownCode_completes hw.1 hw.2
  | status _ _ | release _ _ | anchorRead _ _ | logRead _ _ | logClear _ _ | pipeRead _ _ | windowSet _ _
  | reportRead _ _ | conditionsRead _ _ | captureRead _ _ | captureClear _ _ | profileRead _ _ | keyQuery _ _
  | reopen _ _ => exact take_tested_done_completes hw fun _ => rfl
  | _ => cases hp

/-! ### Events -/

/-- An event completes, with power or without. -/
theorem event_completes {run : State → State} (hr : (run s).pending = s.pending) : Completes (event run s) s := by
  unfold event
  split
  · exact completes_next hr
  · exact completes_next rfl

/-- Every event that can exist completes. -/
theorem event_of_wf_completes (hp : c.packet = none) (hw : c.wf = true) : Completes (exec c s) s := by
  cases c with
  | powerOn now =>
    refine completes_next ((startUpBegin_pending ..).trans ?_)
    split
    · exact cutPower_pending ..
    · rfl
  | powerRemoval _ _ _ => exact event_completes (cutPower_pending ..)
  | storageFault bank a i =>
    have hbit : bankBitOk a i = true := hw
    simp only [exec, execStorageFault, hbit, Bool.not_true, Bool.false_eq_true, if_false]
    exact event_completes rfl
  | keyArrayStorageFault slot w i =>
    have hbit : keyBitOk slot w i = true := hw
    simp only [exec, execKeyArrayStorageFault, hbit, Bool.not_true, Bool.false_eq_true, if_false]
    split <;> exact completes_next rfl
  | pixelReceived r g b =>
    simp only [exec, execPixelReceived]
    refine event_completes ?_
    split
    · rfl
    · simp [pixelBytes]
  | linkLoss => exact event_completes (by simp)
  | fetchWordRead => exact event_completes (by simp)
  | inputFrameStart _ | rowEnd | inputFrameEnd | pixelProcess | deadlineExpiry | freeRunFrameEnd | freeRunPixelSent
  | scrubWriteBack | engineWordWrite | engineWordRead | commitReaderWord | flashOperationEnd _ _ | keyWordProgrammed _
  | keyVerifyEnd | keyArrayScanEnd | loaderWordWrite _ | startUpLoadEnd _ | replyTransmissionEnd _ =>
    simp only [exec, execInputFrameStart, execRowEnd, execInputFrameEnd, execPixelProcess, execDeadlineExpiry,
      execFreeRunFrameEnd, execFreeRunPixelSent, execScrubWriteBack, execEngineWordWrite, execEngineWordRead,
      execCommitReaderWord, execFlashOperationEnd, execKeyWordProgrammed, execKeyVerifyEnd, execKeyArrayScanEnd,
      execLoaderWordWrite, execStartUpLoadEnd, execReplyTransmissionEnd]
    refine event_completes ?_
    repeat' split
    all_goals simp
  | _ => cases hp

theorem exec_completes (hw : c.wf = true) : Completes (exec c s) s := by
  cases hp : c.packet with
  | none => exact event_of_wf_completes hp hw
  | some p => exact command_completes hp hw

/-! ### Commands that cannot exist -/

/-- A packet that no service line can carry faults (R160; log 31). -/
theorem exec_badPayload (hp : c.packet = some p) (hbad : payloadOk p.payload = false) :
    exec c s = .fault .noSuchPacket := by
  cases c with
  | unknownCode tag code l =>
    cases hp
    simp only [exec, execUnknownCode]
    split
    · rfl
    · exact take_fault _ hbad
  | anchorSet _ _ | nodeWrite _ _ | nodeRead _ _ | nodeFill _ _ | pipeSet _ _ | keyData _ _ | keyLock _ _
  | keyAbandon _ _ | commit _ _ =>
    cases hp
    simp only [exec, execAnchorSet, execNodeWrite, execNodeRead, execNodeFill, execPipeSet, execKeyData, execKeyLock,
      execKeyAbandon, execCommit]
    exact take_fault _ hbad
  | _ => cases hp <;> exact take_fault _ hbad

theorem exec_unknownCode_known {code : Byte} (h : code ∈ Config.commandCodes) :
    exec (.unknownCode tag code l) s = .fault .noSuchPacket := by
  have hknown : knownCode code = true := List.contains_iff_mem.mpr h
  simp only [exec, execUnknownCode, hknown, if_true]

theorem bankBitOk_eq_false {a i : Nat} (h : 786431 < a ∨ 38 < i) : bankBitOk a i = false := by
  simp only [bankBitOk, Bool.and_eq_false_iff, decide_eq_false_iff_not]
  unfold Config.bankWords
  omega

theorem keyBitOk_eq_false {slot w i : Nat} (h : 23 < slot ∨ 259 < w ∨ 31 < i) : keyBitOk slot w i = false := by
  simp only [keyBitOk, Bool.and_eq_false_iff, decide_eq_false_iff_not]
  unfold Config.keySlots Config.slotAreaWords
  omega

/-- Settles O2. -/
theorem commandsCompleteOrFault : Obligations.CommandsCompleteOrFault := by
  refine ⟨fun c s hw => exec_completes hw, fun c p s => exec_badPayload, fun tag code l s => exec_unknownCode_known,
    fun bank a i s h => ?_, fun slot w i s h => ?_⟩
  · simp only [exec, execStorageFault, bankBitOk_eq_false h, Bool.not_false, if_true]
  · simp only [exec, execKeyArrayStorageFault, keyBitOk_eq_false h, Bool.not_false, if_true]

end Sys2Proof.Machine
end

section
/-! SUPPORT. A service line read back: what the fields and packets that a station writes give the decoder. -/

namespace Sys2Proof.Machine

/-! ### Fields (R159, R165) -/

theorem byteHalf_extract (v : BitVec 16) : byteHalf (v.extractLsb' 8 8) (v.extractLsb' 0 8) = v := by
  apply BitVec.eq_of_getLsbD_eq
  intro i hi
  simp only [byteHalf, BitVec.getLsbD_append, BitVec.getLsbD_extractLsb']
  split
  · simp_all
  · simp [show i - 8 < 8 by omega, show 8 + (i - 8) = i by omega]

theorem byteWord_extract (w : Word) :
    byteWord (w.extractLsb' 24 8) (w.extractLsb' 16 8) (w.extractLsb' 8 8) (w.extractLsb' 0 8) = w := by
  apply BitVec.eq_of_getLsbD_eq
  intro i hi
  simp only [byteWord, BitVec.getLsbD_append, BitVec.getLsbD_extractLsb']
  repeat' split
  · simp_all
  · simp [show i - 8 < 8 by omega, show 8 + (i - 8) = i by omega]
  · simp [show i - 8 - 8 < 8 by omega, show 16 + (i - 8 - 8) = i by omega]
  · simp [show i - 8 - 8 - 8 < 8 by omega, show 24 + (i - 8 - 8 - 8) = i by omega]

@[simp] theorem halfBytes_length (v : BitVec 16) : (halfBytes v).length = 2 := rfl

theorem halfAt_append (a b : List Byte) (i : Nat) : halfAt (a ++ b) (a.length + i) = halfAt b i := by
  simp only [halfAt, List.getD_eq_getElem?_getD]
  rw [Nat.add_assoc, List.getElem?_append_right (Nat.le_add_right ..), List.getElem?_append_right (Nat.le_add_right ..),
    Nat.add_sub_cancel_left, Nat.add_sub_cancel_left]

/-- A two-byte field behind other bytes reads as written. -/
theorem halfAt_halfBytes (a b : List Byte) (v : BitVec 16) : halfAt (a ++ (halfBytes v ++ b)) a.length = v :=
  (halfAt_append a (halfBytes v ++ b) 0).trans (byteHalf_extract v)

theorem bytesWords_wordsBytes (ws : List Word) : bytesWords (wordsBytes ws) = ws := by
  induction ws with
  | nil => rfl
  | cons w ws ih =>
    have hcons : bytesWords (wordsBytes (w :: ws)) =
        byteWord (w.extractLsb' 24 8) (w.extractLsb' 16 8) (w.extractLsb' 8 8) (w.extractLsb' 0 8) ::
          bytesWords (wordsBytes ws) := rfl
    rw [hcons, byteWord_extract, ih]

theorem wordsBytes_length (ws : List Word) : (wordsBytes ws).length = 4 * ws.length := by
  induction ws with
  | nil => rfl
  | cons w ws ih =>
    have hcons : (wordsBytes (w :: ws)).length = 4 + (wordsBytes ws).length := by
      simp [wordsBytes, wordBytes]
      omega
    rw [hcons, ih, List.length_cons]
    omega

/-- The byte count and the check of a line header. -/
def headerFields (count : Nat) : List Byte :=
  halfBytes (BitVec.ofNat 16 count) ++ halfBytes (crc16 (marker ++ halfBytes (BitVec.ofNat 16 count)))

theorem lineHeader_eq (count : Nat) : lineHeader count = marker ++ headerFields count := List.append_assoc ..

/-- The fields of a header read as written: its byte count, and the check of the bytes before it. -/
theorem headerFields_read {count : Nat} (h : count ≤ 23028) :
    (halfAt (headerFields count) 0).toNat = count ∧
      halfAt (headerFields count) 2 = crc16 (marker ++ (headerFields count).take 2) := by
  constructor
  · rw [headerFields, show (0 : Nat) = ([] : List Byte).length from rfl, ← List.nil_append (halfBytes _ ++ _),
      halfAt_halfBytes, BitVec.toNat_ofNat]
    exact Nat.mod_eq_of_lt (by omega)
  · have hcheck := halfAt_halfBytes (halfBytes (BitVec.ofNat 16 count)) []
      (crc16 (marker ++ halfBytes (BitVec.ofNat 16 count)))
    rw [List.append_nil] at hcheck
    exact hcheck

/-! ### Packets (R160) -/

/-- The bytes that a packet's check covers. -/
def packetBody (reserved : Byte) (p : Packet) : List Byte :=
  [p.tag, p.code, BitVec.ofNat 8 (p.payload.length - 1), reserved] ++ wordsBytes p.payload

theorem packetBytes_eq (reserved : Byte) (p : Packet) :
    packetBytes reserved p = packetBody reserved p ++ halfBytes (crc16 (packetBody reserved p)) := rfl

theorem packetBody_length (reserved : Byte) (p : Packet) :
    (packetBody reserved p).length = 4 + 4 * p.payload.length := by
  simp [packetBody, wordsBytes_length]; omega

theorem packetBytes_length (reserved : Byte) (p : Packet) :
    (packetBytes reserved p).length = 6 + 4 * p.payload.length := by
  rw [packetBytes_eq, List.length_append, packetBody_length, halfBytes_length]; omega

/-- The bytes are a packet whose length code is below 128, as long as that code says, with its check right (R160). -/
structure SoundPacket (bytes : List Byte) : Prop where
  code : (bytes.getD 2 0).toNat < 128
  length : bytes.length = packetLength (bytes.getD 2 0)
  check : crc16 (bytes.take (bytes.length - 2)) = halfAt bytes (bytes.length - 2)

theorem packetBytes_sound {reserved : Byte} {p : Packet} (hp : payloadOk p.payload = true) :
    SoundPacket (packetBytes reserved p) := by
  simp only [payloadOk, Bool.and_eq_true, decide_eq_true_eq] at hp
  obtain ⟨hmin, hmax⟩ := hp
  unfold Config.maxPayload at hmax
  have hcode : ((packetBytes reserved p).getD 2 0).toNat = p.payload.length - 1 := by
    simp only [packetBytes, List.cons_append, List.getD_cons_succ, List.getD_cons_zero, BitVec.toNat_ofNat]
    exact Nat.mod_eq_of_lt (by omega)
  have hbody : (packetBytes reserved p).length - 2 = (packetBody reserved p).length := by
    rw [packetBytes_length, packetBody_length]; omega
  refine ⟨by omega, ?_, ?_⟩
  · rw [packetBytes_length, packetLength, hcode]; omega
  · rw [hbody, packetBytes_eq, List.take_left]
    simpa using (halfAt_halfBytes (packetBody reserved p) [] (crc16 (packetBody reserved p))).symm

/-- A packet's bytes hold the packet, whatever its reserved byte is. -/
theorem packetOf_packetBytes (reserved : Byte) (p : Packet) : packetOf (packetBytes reserved p) = p := by
  have hpayload : ((packetBytes reserved p).drop 4).take ((packetBytes reserved p).length - 6) =
      wordsBytes p.payload := by
    rw [packetBytes_length, packetBytes_eq]
    simp [packetBody, List.take_left', wordsBytes_length]
  unfold packetOf
  rw [hpayload, bytesWords_wordsBytes]
  rfl

theorem packetsBytes_cons (reserved : Byte) (p : Packet) (ps : List (Byte × Packet)) :
    packetsBytes ((reserved, p) :: ps) = packetBytes reserved p ++ packetsBytes ps := rfl

end Sys2Proof.Machine
end

section
/-! SUPPORT. The decoder on a service line: its marker, its header, and packet by packet (Table 51). -/

namespace Sys2Proof.Machine

variable {s : State} {f : RxFrame} {d : Decoder} {bytes : List Byte} {count consumed : Nat}

/-! ### Operations of the line -/

@[simp] theorem setDec_withRx (d d' : Decoder) : setDec d (s.withRx (f.withDec d')) = s.withRx (f.withDec d) := rfl

/-- A service line more has been recognised (R158). -/
def State.recognised (s : State) : State := { s with rx.serviceRows := s.rx.serviceRows + 1 }

/-- Packets placed as the newest of the command queue (R161). -/
def State.supplied (s : State) (ps : List Packet) : State := { s with eng.queue := s.eng.queue ++ ps }

/-- Hold has been entered at a fault on a line, with CHECK and the row (R149). -/
def State.heldOnLine (s : State) (row : Nat) : State :=
  { s with eng.hold := some ⟨.check, none, some row, none, s.timing.frameNumber⟩ }

/-- A line left at a fault or at its end: the rest of it is not examined (R160). -/
def skipping (count consumed : Nat) : Decoder := ⟨.skipping, some count, some consumed, []⟩

theorem lineFault_withRx (hold : s.eng.hold = none) (row : Nat) (d d' : Decoder) :
    lineFault row d (s.withRx (f.withDec d')) =
      (s.heldOnLine row).withRx (f.withDec { d with state := .skipping, bytes := [] }) := by
  simp [lineFault, enterHold, State.withRx, hold, setDec, State.heldOnLine, RxFrame.withDec]

theorem offerPacket_withRx (hroom : s.eng.queue.length < 320) (p : Packet) (row : Nat) (g : RxFrame) :
    offerPacket p row (s.withRx g) = (s.supplied [p]).withRx g := by
  have hroom' : (s.withRx g).eng.queue.length < Config.commandQueueSize := hroom
  rw [offerPacket, if_pos hroom']
  rfl

/-- Bytes behind a line that is finished or at fault change nothing. -/
theorem foldl_decodeByte_skipping (l : List Byte) (hd : d.state = .skipping) :
    l.foldl decodeByte (s.withRx (f.withDec d)) = s.withRx (f.withDec d) := by
  induction l with
  | nil => rfl
  | cons x l ih =>
    have hx : decodeByte (s.withRx (f.withDec d)) x = s.withRx (f.withDec d) := by
      simp [decodeByte, State.withRx, RxFrame.withDec, hd]
    rw [List.foldl_cons, hx, ih]

/-! ### The marker and the header (R158, R159) -/

/-- The decoder gathering a line header. -/
def inHeader (l : List Byte) : Decoder := { idleDecoder with state := .header, bytes := l }

/-- Within the byte count with no packet begun: the line is finished once the count is consumed. -/
def betweenPackets (count consumed : Nat) : Decoder :=
  ⟨if consumed = count then .skipping else .packets, some count, some consumed, []⟩

/-- The eight bytes of the marker recognise the line (R158). -/
theorem foldl_decodeByte_marker :
    marker.foldl decodeByte (s.withRx (f.withDec (matching []))) =
      s.recognised.withRx (f.withDec (inHeader marker)) := by
  have hlast : decodeByte (s.withRx (f.withDec (matching (marker.take 7)))) 0x9A =
      s.recognised.withRx (f.withDec (inHeader marker)) := rfl
  rw [show marker = marker.take 7 ++ [0x9A] from rfl, List.foldl_append, foldl_decodeByte_matching (by decide),
    List.nil_append, List.foldl_cons, List.foldl_nil, hlast]
  rfl

theorem decodeByte_inHeader {l : List Byte} (x : Byte) (hl : l.length < 11) :
    decodeByte (s.withRx (f.withDec (inHeader l))) x = s.withRx (f.withDec (inHeader (l ++ [x]))) := by
  have hlen : (l ++ [x]).length < 12 := by simp; omega
  simp [decodeByte, State.withRx, RxFrame.withDec, inHeader, hlen, setDec, -List.length_append]

theorem decodeByte_header_end {l : List Byte} (x : Byte) (hl : l.length = 11) :
    decodeByte (s.withRx (f.withDec (inHeader l))) x =
      decideHeader f.row (l ++ [x]) (s.withRx (f.withDec (inHeader l))) := by
  have hlen : ¬ (l ++ [x]).length < 12 := by simp; omega
  simp [decodeByte, State.withRx, RxFrame.withDec, inHeader, hlen, -List.length_append]

/-- The four bytes behind the marker are tested when the last of them arrives (R159). -/
theorem foldl_decodeByte_header {header : List Byte} (hlen : header.length = 4) :
    ∃ d, header.foldl decodeByte (s.withRx (f.withDec (inHeader marker))) =
      decideHeader f.row (marker ++ header) (s.withRx (f.withDec d)) := by
  match header, hlen with
  | [a, b, c, e], _ =>
    refine ⟨inHeader (marker ++ [a] ++ [b] ++ [c]), ?_⟩
    simp only [List.foldl_cons, List.foldl_nil]
    rw [decodeByte_inHeader a (by decide), decodeByte_inHeader b (by simp [marker]),
      decodeByte_inHeader c (by simp [marker]), decodeByte_header_end e (by simp [marker])]
    simp

theorem decideHeader_good (row : Nat) (hcheck : crc16 (bytes.take 10) = halfAt bytes 10)
    (hcount : (halfAt bytes 8).toNat ≤ 23028) :
    decideHeader row bytes (s.withRx (f.withDec d)) =
      s.withRx (f.withDec (betweenPackets (halfAt bytes 8).toNat 0)) := by
  have hgood : ¬ (crc16 (bytes.take 10) ≠ halfAt bytes 10 ∨ maxLineCount < (halfAt bytes 8).toNat) := by
    simpa [hcheck, maxLineCount] using hcount
  unfold decideHeader
  dsimp only
  rw [if_neg hgood]
  by_cases hzero : (halfAt bytes 8).toNat = 0
  · simp [hzero, betweenPackets]
  · simp [hzero, betweenPackets, Ne.symm hzero]

theorem decideHeader_bad (hold : s.eng.hold = none) (row : Nat)
    (hbad : crc16 (bytes.take 10) ≠ halfAt bytes 10 ∨ 23028 < (halfAt bytes 8).toNat) :
    decideHeader row bytes (s.withRx (f.withDec d)) =
      (s.heldOnLine row).withRx (f.withDec (skipping (halfAt bytes 8).toNat 0)) := by
  have hfaulty : crc16 (bytes.take 10) ≠ halfAt bytes 10 ∨ maxLineCount < (halfAt bytes 8).toNat := hbad
  unfold decideHeader
  dsimp only
  rw [if_pos hfaulty, lineFault_withRx hold]
  rfl

theorem marker_header_fields (header : List Byte) :
    (marker ++ header).take 10 = marker ++ header.take 2 ∧ halfAt (marker ++ header) 10 = halfAt header 2 ∧
      halfAt (marker ++ header) 8 = halfAt header 0 :=
  ⟨rfl, halfAt_append marker header 2, halfAt_append marker header 0⟩

/-- A line header for a byte count that a line can have is good. -/
theorem foldl_decodeByte_lineHeader (hcount : count ≤ 23028) :
    (lineHeader count).foldl decodeByte (s.withRx (f.withDec (matching []))) =
      s.recognised.withRx (f.withDec (betweenPackets count 0)) := by
  obtain ⟨htake, hcheck, hfield⟩ := marker_header_fields (headerFields count)
  obtain ⟨hcountField, hcheckField⟩ := headerFields_read hcount
  obtain ⟨d, hheader⟩ := foldl_decodeByte_header (s := s.recognised) (f := f) (header := headerFields count) rfl
  rw [lineHeader_eq, List.foldl_append, foldl_decodeByte_marker, hheader, decideHeader_good, hfield, hcountField]
  · rw [htake, hcheck, hcheckField]
  · rwa [hfield, hcountField]

/-! ### Packets (R160) -/

/-- The decoder with the bytes of a packet in hand. -/
def inPacket (count consumed : Nat) (l : List Byte) : Decoder := ⟨.packets, some count, some consumed, l⟩

/-- A packet of which these bytes have arrived shows no fault and is not complete (R160). -/
def PacketGoesOn (count consumed : Nat) (bytes : List Byte) : Prop :=
  consumed + 4 ≤ count ∧ (3 ≤ bytes.length →
    (bytes.getD 2 0).toNat < 128 ∧ consumed + packetLength (bytes.getD 2 0) ≤ count ∧
      bytes.length < packetLength (bytes.getD 2 0))

theorem decodeByte_inPacket (l : List Byte) (x : Byte) :
    decodeByte (s.withRx (f.withDec (inPacket count consumed l))) x =
      decidePacket f.row count consumed (l ++ [x]) (s.withRx (f.withDec (inPacket count consumed l))) := rfl

theorem decidePacket_goesOn (h : PacketGoesOn count consumed bytes) (row : Nat) :
    decidePacket row count consumed bytes (s.withRx (f.withDec d)) =
      s.withRx (f.withDec (inPacket count consumed bytes)) := by
  obtain ⟨hroom, hlong⟩ := h
  unfold decidePacket
  dsimp only
  rw [if_neg (by omega)]
  by_cases hlen : bytes.length < 3
  · rw [if_pos hlen]
    rfl
  · obtain ⟨hcode, hfits, hmore⟩ := hlong (by omega)
    rw [if_neg hlen, if_neg (by omega), if_pos hmore]
    rfl

/-- Bytes of a packet of which no beginning shows a fault or is complete are gathered. -/
theorem foldl_decodeByte_goesOn {l m : List Byte}
    (h : ∀ k < m.length, PacketGoesOn count consumed (l ++ m.take (k + 1))) :
    m.foldl decodeByte (s.withRx (f.withDec (inPacket count consumed l))) =
      s.withRx (f.withDec (inPacket count consumed (l ++ m))) := by
  induction m generalizing l with
  | nil => simp
  | cons x m ih =>
    have hfirst : PacketGoesOn count consumed (l ++ [x]) := h 0 (by simp)
    rw [List.foldl_cons, decodeByte_inPacket, decidePacket_goesOn hfirst, ih fun k hk => ?_, List.append_assoc,
      List.singleton_append]
    simpa using h (k + 1) (by simpa using hk)

/-- A packet, good or faulty, is decided at the last of its bytes. -/
theorem foldl_decodeByte_packet (hne : bytes ≠ [])
    (h : ∀ k, 1 ≤ k → k < bytes.length → PacketGoesOn count consumed (bytes.take k)) :
    ∃ d, bytes.foldl decodeByte (s.withRx (f.withDec (inPacket count consumed []))) =
      decidePacket f.row count consumed bytes (s.withRx (f.withDec d)) := by
  obtain ⟨l, x, rfl⟩ : ∃ l x, bytes = l ++ [x] := ⟨_, _, (List.dropLast_concat_getLast hne).symm⟩
  refine ⟨inPacket count consumed l, ?_⟩
  have hgather := foldl_decodeByte_goesOn (s := s) (f := f) (count := count) (consumed := consumed) (l := []) (m := l)
    fun k hk => by
      have hbegun := h (k + 1) (by omega) (by simpa using hk)
      rwa [List.take_append_of_le_length (by omega)] at hbegun
  rw [List.foldl_append, hgather, List.nil_append]
  exact decodeByte_inPacket l x

/-- No beginning of bytes with a good length code that fits shows a fault. -/
theorem packetGoesOn_take (hcode : (bytes.getD 2 0).toNat < 128) (hlen : bytes.length = packetLength (bytes.getD 2 0))
    (hfits : consumed + bytes.length ≤ count) {k : Nat} (hk : k < bytes.length) :
    PacketGoesOn count consumed (bytes.take k) := by
  refine ⟨?_, fun hthree => ?_⟩
  · unfold packetLength at hlen
    omega
  · rw [List.length_take] at hthree
    have hget : (bytes.take k).getD 2 0 = bytes.getD 2 0 := by
      simp only [List.getD_eq_getElem?_getD]
      rw [List.getElem?_take_of_lt (by omega)]
    rw [hget, List.length_take]
    exact ⟨hcode, by omega, by omega⟩

theorem decidePacket_sound (h : SoundPacket bytes) (hfits : consumed + bytes.length ≤ count) (row : Nat) :
    decidePacket row count consumed bytes (s.withRx (f.withDec d)) =
      offerPacket (packetOf bytes) row (s.withRx (f.withDec (betweenPackets count (consumed + bytes.length)))) := by
  obtain ⟨hcode, hlen, hcheck⟩ := h
  have hmin : 10 ≤ bytes.length := by
    unfold packetLength at hlen
    omega
  unfold decidePacket
  dsimp only
  rw [← hlen, if_neg (by omega), if_neg (by omega), if_neg (by omega), if_neg (by omega),
    if_neg (by simpa using hcheck)]
  rfl

/-- A good packet within the byte count is placed where the command queue has room (R160, R161). -/
theorem foldl_decodeByte_sound (h : SoundPacket bytes) (hfits : consumed + bytes.length ≤ count)
    (hroom : s.eng.queue.length < 320) :
    bytes.foldl decodeByte (s.withRx (f.withDec (betweenPackets count consumed))) =
      (s.supplied [packetOf bytes]).withRx (f.withDec (betweenPackets count (consumed + bytes.length))) := by
  have hpos : 0 < bytes.length := by
    rw [h.length, packetLength]
    omega
  have hbegin : betweenPackets count consumed = inPacket count consumed [] := by
    rw [betweenPackets, if_neg (by omega)]
    rfl
  obtain ⟨d, hfold⟩ := foldl_decodeByte_packet (s := s) (f := f) (List.ne_nil_of_length_pos hpos)
    fun k _ hk => packetGoesOn_take h.code h.length hfits hk
  rw [hbegin, hfold, decidePacket_sound h hfits, offerPacket_withRx hroom]

/-- Good packets are placed in their order (R161). -/
theorem foldl_decodeByte_packets {ps : List (Byte × Packet)} (hps : ∀ p ∈ ps, payloadOk p.2.payload = true)
    (hfits : consumed + (packetsBytes ps).length ≤ count) (hroom : s.eng.queue.length + ps.length ≤ 320) :
    (packetsBytes ps).foldl decodeByte (s.withRx (f.withDec (betweenPackets count consumed))) =
      (s.supplied (ps.map Prod.snd)).withRx
        (f.withDec (betweenPackets count (consumed + (packetsBytes ps).length))) := by
  induction ps generalizing s consumed with
  | nil => simp [packetsBytes, State.supplied]
  | cons q ps ih =>
    obtain ⟨reserved, p⟩ := q
    rw [packetsBytes_cons, List.length_append] at hfits ⊢
    rw [List.length_cons] at hroom
    have hp : payloadOk p.payload = true := hps (reserved, p) (by simp)
    rw [List.foldl_append, foldl_decodeByte_sound (packetBytes_sound hp) (by omega) (by omega), packetOf_packetBytes,
      ih (fun x hx => hps x (by simp [hx])) (by omega) (by simp [State.supplied]; omega), Nat.add_assoc]
    simp [State.supplied]

/-! ### Faults -/

theorem faultyPacket_ne_nil {room : Nat} (h : faultyPacket room bytes) : bytes ≠ [] := by
  rintro rfl
  simp [faultyPacket] at h

/-- A packet shows its fault at the last of the bytes up to it, and none before. -/
theorem faultyPacket_goesOn (h : faultyPacket (count - consumed) bytes) {k : Nat} (hpos : 1 ≤ k)
    (hk : k < bytes.length) :
    PacketGoesOn count consumed (bytes.take k) := by
  obtain ⟨-, -, hlen⟩ | ⟨hroom, hlen, -⟩ | ⟨hcode, hlen, hfits, -⟩ := h
  · omega
  · exact ⟨by omega, fun hthree => by rw [List.length_take] at hthree; omega⟩
  · exact packetGoesOn_take hcode hlen (by omega) hk

theorem decidePacket_faulty (h : faultyPacket (count - consumed) bytes) (hold : s.eng.hold = none) (row : Nat) :
    decidePacket row count consumed bytes (s.withRx (f.withDec d)) =
      (s.heldOnLine row).withRx (f.withDec (skipping count consumed)) := by
  have hfault : lineFault row (inPacket count consumed bytes) (s.withRx (f.withDec d)) =
      (s.heldOnLine row).withRx (f.withDec (skipping count consumed)) := lineFault_withRx hold ..
  rw [← hfault]
  unfold decidePacket
  dsimp only
  obtain ⟨-, hroom, -⟩ | ⟨hroom, hlen, hbad⟩ | ⟨hcode, hlen, hfits, hcheck⟩ := h
  · rw [if_pos (by omega)]
    rfl
  · rw [if_neg (by omega), if_neg (by omega), if_pos (by unfold packetLength; omega)]
    rfl
  · have hsize : packetLength (bytes.getD 2 0) = bytes.length := hlen.symm
    rw [hsize, if_neg (by omega), if_neg (by omega), if_neg (by omega), if_neg (by omega), if_pos hcheck]
    rfl

/-- A faulty packet leaves the line and enters hold (R160). -/
theorem foldl_decodeByte_faulty (h : faultyPacket (count - consumed) bytes) (hold : s.eng.hold = none) :
    bytes.foldl decodeByte (s.withRx (f.withDec (betweenPackets count consumed))) =
      (s.heldOnLine f.row).withRx (f.withDec (skipping count consumed)) := by
  have hbegin : betweenPackets count consumed = inPacket count consumed [] := by
    have hroom : consumed ≠ count := by
      rintro rfl
      unfold faultyPacket at h
      omega
    rw [betweenPackets, if_neg hroom]
    rfl
  obtain ⟨d, hfold⟩ := foldl_decodeByte_packet (s := s) (f := f) (faultyPacket_ne_nil h)
    fun k hpos hk => faultyPacket_goesOn h hpos hk
  rw [hbegin, hfold, decidePacket_faulty h hold]

end Sys2Proof.Machine
end

section
/-! SUPPORT. The pixels of a service line: counted and passed on, they give the decoder their bytes (R157). -/

namespace Sys2Proof.Machine

variable {s : State} {f : RxFrame}

/-! ### Counting does not disturb decoding -/

/-- Another number of pixels received in the row, and other pixels waiting. -/
def State.counting (s : State) (n : Nat) (q : List InPixel) : State :=
  { s with rx.frame := s.rx.frame.map fun f => { f with pixels := n }, pipe.input := q }

@[simp] theorem counting_counting (s : State) (n m : Nat) (q r : List InPixel) :
    (s.counting n q).counting m r = s.counting m r := by
  cases hf : s.rx.frame <;> simp [State.counting, hf]

theorem counting_self (hf : s.rx.frame = some f) : s.counting f.pixels s.pipe.input = s := by
  change { s with rx.frame := s.rx.frame.map fun g => { g with pixels := f.pixels } } = s
  rw [hf]
  change { s with rx.frame := some f } = s
  rw [← hf]

theorem setDec_counting (d : Decoder) (n : Nat) (q : List InPixel) (s : State) :
    setDec d (s.counting n q) = (setDec d s).counting n q := by
  cases hf : s.rx.frame <;> simp [setDec, State.counting, hf]

theorem enterHold_counting (c : HoldCause) (tag : Option Byte) (row addr : Option Nat) (n : Nat) (q : List InPixel)
    (s : State) : enterHold c tag row addr (s.counting n q) = (enterHold c tag row addr s).counting n q := by
  cases hold : s.eng.hold <;> simp [enterHold, State.counting, hold]

theorem lineFault_counting (row : Nat) (d : Decoder) (n : Nat) (q : List InPixel) (s : State) :
    lineFault row d (s.counting n q) = (lineFault row d s).counting n q := by
  rw [lineFault, setDec_counting, enterHold_counting]
  rfl

theorem offerPacket_counting (p : Packet) (row n : Nat) (q : List InPixel) (s : State) :
    offerPacket p row (s.counting n q) = (offerPacket p row s).counting n q := by
  unfold offerPacket
  split <;> rename_i hroom
  · rw [if_pos (show s.eng.queue.length < Config.commandQueueSize from hroom)]
    rfl
  · rw [if_neg (show ¬ s.eng.queue.length < Config.commandQueueSize from hroom), enterHold_counting]

theorem decideMarker_counting (f : RxFrame) (bytes : List Byte) (n : Nat) (q : List InPixel) (s : State) :
    decideMarker { f with pixels := n } bytes (s.counting n q) = (decideMarker f bytes s).counting n q := by
  unfold decideMarker
  split
  · exact setDec_counting _ n q { s with rx.serviceRows := s.rx.serviceRows + 1 }
  · rfl

theorem decideHeader_counting (row : Nat) (bytes : List Byte) (n : Nat) (q : List InPixel) (s : State) :
    decideHeader row bytes (s.counting n q) = (decideHeader row bytes s).counting n q := by
  unfold decideHeader
  dsimp only
  repeat' split
  · exact lineFault_counting ..
  all_goals exact setDec_counting ..

theorem decidePacket_counting (row count consumed : Nat) (bytes : List Byte) (n : Nat) (q : List InPixel) (s : State) :
    decidePacket row count consumed bytes (s.counting n q) =
      (decidePacket row count consumed bytes s).counting n q := by
  unfold decidePacket
  simp only [lineFault_counting, setDec_counting, offerPacket_counting, ← apply_ite (State.counting · n q)]

/-- What the decoder makes of a byte does not rest on the pixels counted. -/
theorem decodeByte_counting (n : Nat) (q : List InPixel) (s : State) (x : Byte) :
    decodeByte (s.counting n q) x = (decodeByte s x).counting n q := by
  cases hf : s.rx.frame with
  | none => simp [decodeByte, State.counting, hf]
  | some f =>
    have hg : (s.counting n q).rx.frame = some { f with pixels := n } := by simp [State.counting, hf]
    unfold decodeByte
    rw [hf, hg]
    dsimp only
    repeat' split
    · exact setDec_counting ..
    · exact decideMarker_counting ..
    · exact setDec_counting ..
    · exact decideHeader_counting ..
    · exact decidePacket_counting ..
    all_goals rfl

theorem foldl_decodeByte_counting (n : Nat) (q : List InPixel) (l : List Byte) (s : State) :
    l.foldl decodeByte (s.counting n q) = (l.foldl decodeByte s).counting n q := by
  induction l generalizing s with
  | nil => rfl
  | cons x l ih => rw [List.foldl_cons, decodeByte_counting, ih, List.foldl_cons]

/-! ### The decoder stays on the line -/

/-- The decoder is past the marker, or it is gathering it and the bytes to come complete it. -/
def Decoder.Follows (d : Decoder) (bytes : List Byte) : Prop :=
  d.state = .header ∨ d.state = .packets ∨ d.state = .skipping ∨
    d.state = .matching ∧ d.bytes.length < 8 ∧ marker <+: d.bytes ++ bytes

/-- A row is in progress, and the bytes to come keep the decoder on its service line. -/
def State.Follows (s : State) (bytes : List Byte) : Prop :=
  ∃ f, s.rx.frame = some f ∧ f.rowOpen = true ∧ f.dec.Follows bytes

theorem follows_counting {bytes : List Byte} (h : s.Follows bytes) (n : Nat) (q : List InPixel) :
    (s.counting n q).Follows bytes := by
  obtain ⟨f, hf, hopen, hd⟩ := h
  exact ⟨{ f with pixels := n }, by simp [State.counting, hf], hopen, hd⟩

theorem follows_setDec {bytes : List Byte} {d : Decoder} (hf : s.rx.frame = some f) (hopen : f.rowOpen = true)
    (hd : d.Follows bytes) : (setDec d s).Follows bytes :=
  ⟨f.withDec d, by simp [setDec, hf, RxFrame.withDec], hopen, hd⟩

theorem follows_congr {t : State} {bytes : List Byte} (h : s.Follows bytes) (hrx : t.rx = s.rx) : t.Follows bytes := by
  obtain ⟨f, hf, hrest⟩ := h
  exact ⟨f, hrx ▸ hf, hrest⟩

theorem follows_lineFault {bytes : List Byte} (hf : s.rx.frame = some f) (hopen : f.rowOpen = true) (row : Nat)
    (d : Decoder) : (lineFault row d s).Follows bytes :=
  follows_congr (s := setDec { d with state := .skipping, bytes := [] } s)
    (follows_setDec hf hopen (.inr (.inr (.inl rfl)))) (by simp [lineFault])

theorem follows_decidePacket {bytes : List Byte} (hf : s.rx.frame = some f) (hopen : f.rowOpen = true)
    (row count consumed : Nat) (l : List Byte) : (decidePacket row count consumed l s).Follows bytes := by
  unfold decidePacket
  dsimp only
  split
  · exact follows_lineFault hf hopen ..
  · split
    · exact follows_setDec hf hopen (.inr (.inl rfl))
    · split
      · exact follows_lineFault hf hopen ..
      · split
        · exact follows_setDec hf hopen (.inr (.inl rfl))
        · split
          · exact follows_lineFault hf hopen ..
          · refine follows_congr (follows_setDec hf hopen ?_) (offerPacket_frame ..).2.2.1
            split
            · exact .inr (.inr (.inl rfl))
            · exact .inr (.inl rfl)

theorem follows_decideHeader {bytes : List Byte} (hf : s.rx.frame = some f) (hopen : f.rowOpen = true) (row : Nat)
    (l : List Byte) : (decideHeader row l s).Follows bytes := by
  unfold decideHeader
  dsimp only
  repeat' split
  · exact follows_lineFault hf hopen ..
  · exact follows_setDec hf hopen (.inr (.inr (.inl rfl)))
  · exact follows_setDec hf hopen (.inr (.inl rfl))

/-- A byte of the line leaves the decoder on it. -/
theorem follows_decodeByte {x : Byte} {bytes : List Byte} (h : s.Follows (x :: bytes)) :
    (decodeByte s x).Follows bytes := by
  obtain ⟨f, hf, hopen, hstate | hstate | hstate | ⟨hstate, hshort, hprefix⟩⟩ := h
  · simp only [decodeByte, hf, hstate]
    split
    · exact follows_setDec hf hopen (.inl rfl)
    · exact follows_decideHeader hf hopen ..
  · simp only [decodeByte, hf, hstate]
    exact follows_decidePacket hf hopen ..
  · simp only [decodeByte, hf, hstate]
    exact ⟨f, hf, hopen, .inr (.inr (.inl hstate))⟩
  · have hsplit : marker <+: (f.dec.bytes ++ [x]) ++ bytes := by simpa using hprefix
    simp only [decodeByte, hf, hstate]
    split
    · next hlen => exact follows_setDec hf hopen (.inr (.inr (.inr ⟨rfl, hlen, hsplit⟩)))
    · next hlen =>
      have hfull : (f.dec.bytes ++ [x]).length = marker.length := by
        rw [List.length_append, List.length_singleton] at hlen ⊢
        have : marker.length = 8 := rfl
        omega
      have hmarker : marker = f.dec.bytes ++ [x] :=
        (List.prefix_of_prefix_length_le hsplit (List.prefix_append ..) (Nat.le_of_eq hfull.symm)).eq_of_length hfull.symm
      rw [decideMarker, if_pos hmarker.symm]
      exact follows_setDec (s := { s with rx.serviceRows := s.rx.serviceRows + 1 }) hf hopen (.inl rfl)

theorem follows_foldl_decodeByte {l bytes : List Byte} (h : s.Follows (l ++ bytes)) :
    (l.foldl decodeByte s).Follows bytes := by
  induction l generalizing s with
  | nil => exact h
  | cons x l ih => exact ih (follows_decodeByte h)

/-! ### The pixels of a service line -/

theorem openRow_of_follows {bytes : List Byte} (hopen : f.rowOpen = true) (hd : f.dec.Follows bytes) :
    openRow f = f := by
  have hbusy : f.dec.state ≠ .idle := by
    obtain h | h | h | ⟨h, -⟩ := hd <;> simp [h]
  simp [openRow, hopen, hbusy]

/-- A pixel of a row in progress is counted and passed on, and its bytes are decoded (R156, R157). -/
theorem received_of_follows {p : Fields} {bytes : List Byte} (hp : s.powered = true) (h : s.Follows bytes) :
    ∃ n x, exec (received p) s =
      .next (((pixelBytes p.1 p.2.1 p.2.2).foldl decodeByte s).counting n (s.pipe.input ++ [x])) := by
  obtain ⟨f, hf, hopen, hd⟩ := h
  refine ⟨nextCount f.pixels, placed f.row f.pixels p, ?_⟩
  have hcounted : countedPixel f p.1 p.2.1 p.2.2 s =
      s.counting (nextCount f.pixels) (s.pipe.input ++ [placed f.row f.pixels p]) := by
    simp [countedPixel, openRow_of_follows hopen hd, State.counting, hf, placed]
  rw [received, pixelReceived_eq hp hf, hcounted, foldl_decodeByte_counting]

/-- The pixels of a service line leave what its bytes leave, counted and passed on. -/
theorem runAll_of_follows {l : List Fields} (hp : s.powered = true) (h : s.Follows (rowBytes l)) :
    ∃ n q, runAll (l.map received) s = .next (((rowBytes l).foldl decodeByte s).counting n q) ∧
      q.length = s.pipe.input.length + l.length := by
  induction l generalizing s with
  | nil =>
    obtain ⟨f, hf, -⟩ := h
    exact ⟨f.pixels, s.pipe.input, congrArg _ (counting_self hf).symm, rfl⟩
  | cons p l ih =>
    obtain ⟨n, x, hstep⟩ := received_of_follows (p := p) hp h
    have hnext := follows_counting (follows_foldl_decodeByte (l := pixelBytes p.1 p.2.1 p.2.2) h) n
      (s.pipe.input ++ [x])
    obtain ⟨m, q, hrun, hlen⟩ := ih (by simpa [State.counting, pixelBytes] using hp) hnext
    refine ⟨m, q, ?_, by simp [hlen, State.counting]; omega⟩
    rw [List.map_cons, runAll_cons hstep, hrun, foldl_decodeByte_counting, counting_counting, ← List.foldl_append]
    rfl

/-- The row that the first pixel begins is in progress already for the decoder (R156, R158). -/
theorem runAll_begun {p : Fields} {l : List Instr} (hp : s.powered = true) (hf : s.rx.frame = some f)
    (h : f.beforeRow = true) :
    runAll (received p :: l) s = runAll (received p :: l) (s.withRx ((f.atPixel 0).withDec (matching []))) := by
  have hopened := openRow_of_beforeRow h
  have hsame : exec (received p) s = exec (received p) (s.withRx ((f.atPixel 0).withDec (matching []))) := by
    have hstands : openRow ((f.atPixel 0).withDec (matching [])) = (f.atPixel 0).withDec (matching []) := by
      simp [openRow, RxFrame.atPixel, RxFrame.withDec, matching]
    rw [received, pixelReceived_eq hp hf,
      pixelReceived_eq (s := s.withRx ((f.atPixel 0).withDec (matching []))) hp rfl, countedPixel, countedPixel,
      hopened, hstands]
    rfl
  rw [runAll, runAll, hsame]

/-- The pixels of a row that begins with the marker, in the open service region (R157, R158). -/
theorem runAll_marked {row : List Fields} (hp : s.powered = true) (hf : s.rx.frame = some f)
    (h : f.beforeRow = true) (hmarker : marker <+: rowBytes row) :
    ∃ n q, runAll (row.map received) s =
        .next (((rowBytes row).foldl decodeByte (s.withRx ((f.atPixel 0).withDec (matching [])))).counting n q) ∧
      q.length = s.pipe.input.length + row.length := by
  have hfollows : (s.withRx ((f.atPixel 0).withDec (matching []))).Follows (rowBytes row) :=
    ⟨_, rfl, rfl, .inr (.inr (.inr ⟨rfl, Nat.zero_lt_succ 7, hmarker⟩))⟩
  cases row with
  | nil => exact absurd hmarker (by decide)
  | cons p l =>
    rw [List.map_cons, runAll_begun hp hf h]
    exact runAll_of_follows (l := p :: l) hp hfollows

end Sys2Proof.Machine
end

section
/-! SUPPORT. Service lines deliver their packets, and a fault on one enters hold. -/

namespace Sys2Proof.Machine

variable {s : State} {f : RxFrame} {row : List Fields}

theorem marker_prefix_lineHeader (count : Nat) (l : List Byte) : marker <+: lineHeader count ++ l := by
  rw [lineHeader_eq, List.append_assoc]
  exact List.prefix_append ..

/-- A line header and the good packets behind it (R159 to R161). -/
theorem foldl_decodeByte_goodPart {count : Nat} {ps : List (Byte × Packet)} (hcount : count ≤ 23028)
    (hps : ∀ p ∈ ps, payloadOk p.2.payload = true) (hfits : (packetsBytes ps).length ≤ count)
    (hroom : s.eng.queue.length + ps.length ≤ 320) :
    (lineHeader count ++ packetsBytes ps).foldl decodeByte (s.withRx (f.withDec (matching []))) =
      (s.recognised.supplied (ps.map Prod.snd)).withRx (f.withDec (betweenPackets count (packetsBytes ps).length)) := by
  rw [List.foldl_append, foldl_decodeByte_lineHeader hcount,
    foldl_decodeByte_packets (s := s.recognised) hps (by omega) hroom, Nat.zero_add]

/-- Settles O59. -/
theorem serviceLineDelivers : Obligations.ServiceLineDelivers := by
  intro ps padding row f s hp hf h hbytes hps hcount hroom
  have hmarker : marker <+: rowBytes row := by
    rw [hbytes, serviceLine, List.append_assoc]
    exact marker_prefix_lineHeader ..
  obtain ⟨n, q, hrun, hlen⟩ := runAll_marked hp hf h hmarker
  have hregion : f.regionOpen = true := by
    simp only [RxFrame.beforeRow, Bool.and_eq_true] at h
    exact h.1.1
  have hfinished : (betweenPackets (packetsBytes ps).length (packetsBytes ps).length).state = .skipping := if_pos rfl
  rw [hbytes, serviceLine, List.foldl_append, foldl_decodeByte_goodPart hcount hps (Nat.le_refl _) hroom,
    foldl_decodeByte_skipping padding hfinished] at hrun
  exact ⟨_, hrun, rfl, rfl, ⟨_, rfl, hfinished, rfl, hregion⟩, hlen, rfl⟩

/-- The pixels of the row leave this command queue, and hold entered at a fault on the line (R149, R159, R160). -/
def HeldAfter (row : List Fields) (f : RxFrame) (s : State) (queue : List Packet) : Prop :=
  ∃ t, runAll (row.map received) s = .next t ∧
    t.eng = { s.eng with
      queue := queue, hold := some ⟨.check, none, some f.nextRow, none, s.timing.frameNumber⟩ } ∧
    ∃ h, t.rx.frame = some h ∧ h.dec.state = .skipping

theorem heldAfter_of_foldl {l : List Byte} {ps : List Packet} {count consumed : Nat} (hp : s.powered = true)
    (hf : s.rx.frame = some f) (h : f.beforeRow = true) (hmarker : marker <+: rowBytes row)
    (hfold : (rowBytes row).foldl decodeByte (s.withRx ((f.atPixel 0).withDec (matching []))) =
      l.foldl decodeByte (((s.recognised.supplied ps).heldOnLine f.nextRow).withRx
        ((f.atPixel 0).withDec (skipping count consumed)))) :
    HeldAfter row f s (s.eng.queue ++ ps) := by
  obtain ⟨n, q, hrun, -⟩ := runAll_marked hp hf h hmarker
  rw [hfold, foldl_decodeByte_skipping l rfl] at hrun
  exact ⟨_, hrun, rfl, _, rfl, rfl⟩

/-- A faulty line header (R159). -/
theorem heldAfter_header {header bytes : List Byte} (hp : s.powered = true) (hf : s.rx.frame = some f)
    (h : f.beforeRow = true) (hold : s.eng.hold = none) (hlen : header.length = 4)
    (hbytes : rowBytes row = marker ++ header ++ bytes)
    (hbad : crc16 (marker ++ header.take 2) ≠ halfAt header 2 ∨ 23028 < (halfAt header 0).toNat) :
    HeldAfter row f s s.eng.queue := by
  obtain ⟨htake, hcheck, hfield⟩ := marker_header_fields header
  obtain ⟨d, hheader⟩ := foldl_decodeByte_header (s := s.recognised) (f := f.atPixel 0) hlen
  have hmarker : marker <+: rowBytes row := by
    rw [hbytes, List.append_assoc]
    exact List.prefix_append ..
  have hnone : s.recognised.supplied [] = s.recognised := by simp [State.supplied]
  rw [← List.append_nil s.eng.queue]
  refine heldAfter_of_foldl (l := bytes) (count := (halfAt (marker ++ header) 8).toNat) (consumed := 0) hp hf h
    hmarker ?_
  rw [hbytes, List.foldl_append, List.foldl_append, foldl_decodeByte_marker, hheader,
    decideHeader_bad (s := s.recognised) hold _ (by rwa [htake, hcheck, hfield]), hnone]
  rfl

/-- A faulty packet behind good ones (R160). -/
theorem heldAfter_packet {ps : List (Byte × Packet)} {count : Nat} {bad bytes : List Byte} (hp : s.powered = true)
    (hf : s.rx.frame = some f) (h : f.beforeRow = true) (hold : s.eng.hold = none)
    (hps : ∀ p ∈ ps, payloadOk p.2.payload = true) (hcount : count ≤ 23028) (hfits : (packetsBytes ps).length ≤ count)
    (hroom : s.eng.queue.length + ps.length ≤ 320) (hbad : faultyPacket (count - (packetsBytes ps).length) bad)
    (hbytes : rowBytes row = lineHeader count ++ packetsBytes ps ++ bad ++ bytes) :
    HeldAfter row f s (s.eng.queue ++ ps.map Prod.snd) := by
  have hmarker : marker <+: rowBytes row := by
    rw [hbytes, List.append_assoc, List.append_assoc]
    exact marker_prefix_lineHeader ..
  refine heldAfter_of_foldl (l := bytes) (count := count) (consumed := (packetsBytes ps).length) hp hf h hmarker ?_
  rw [hbytes, List.foldl_append, List.foldl_append, foldl_decodeByte_goodPart hcount hps hfits hroom,
    foldl_decodeByte_faulty (s := s.recognised.supplied (ps.map Prod.snd)) hbad hold]
  rfl

/-- Settles O60: the header and the packets of a line in turn, and a packet offered to a full command queue. -/
theorem lineFaultsHold : Obligations.LineFaultsHold := by
  refine ⟨fun bytes row f s hp hf h hold => ⟨fun header hlen hbytes hbad => ?_,
    fun ps count bad hps hcount hfits hroom hbad hbytes => ?_⟩, fun p row s hfull => ⟨fun hold => ?_, fun hold => ?_⟩⟩
  · exact heldAfter_header hp hf h hold hlen hbytes hbad
  · exact heldAfter_packet hp hf h hold hps hcount hfits hroom hbad hbytes
  · have hover : ¬ s.eng.queue.length < Config.commandQueueSize := Nat.not_lt.mpr hfull
    simp only [offerPacket, if_neg hover, enterHold, hold]
  · obtain ⟨r, hr⟩ := Option.isSome_iff_exists.mp hold
    have hover : ¬ s.eng.queue.length < Config.commandQueueSize := Nat.not_lt.mpr hfull
    simp only [offerPacket, if_neg hover, enterHold_of_held hr]

end Sys2Proof.Machine
end

section
/-! SUPPORT. One step of the whole part: one equation for each form of the sender's queue. -/

namespace Sys2Proof.Machine

theorem step_of_pending_cons {s : State} {c : Instr} {rest : List Instr} (h : s.pending = c :: rest) :
    step s = exec c { s with pending := rest } := by
  simp only [step, h]

theorem step_of_pending_nil {s : State} (h : s.pending = []) : step s = .next s := by
  simp only [step, h]

/-- Settles O1. -/
theorem stepRunsFrontCommand : Obligations.StepRunsFrontCommand :=
  ⟨fun _ _ _ => step_of_pending_cons, fun _ => step_of_pending_nil⟩

end Sys2Proof.Machine
end
